-- ==== Sys2Proof/Word.lean ====
section
/-! DEFINITION. The words of the engine: the 256-bit vector bus and the bounds of a 32-bit lane. -/

namespace Sys2Proof

/-- A vector bus (rule R28: each of the four vector buses is 256 bits wide). -/
abbrev Bus := BitVec 256

/-- `INT32_MIN` of rule R10. -/
abbrev int32Min : Int := -2147483648

/-- `INT32_MAX` of rule R10. -/
abbrev int32Max : Int := 2147483647

end Sys2Proof
end

