-- ==== Sys2Proof/Syntax.lean ====
section
/-! DEFINITION. What can be asked of the engine and what it answers: the operation tuple, requests and responses, the
eight instructions of spec/opcode_table.json, typed vector values, and the lines of a host program. -/

namespace Sys2Proof

/-- The width W of an operation (rules R13, R61). -/
inductive Width where
  | w128
  | w256
deriving DecidableEq, Repr

/-- The source element kind S of an operation (rules R13, R61). -/
inductive Source where
  | byte
  | word
deriving DecidableEq, Repr

/-- The final combination T of an operation (rules R13, R61). -/
inductive Final where
  | wrap
  | sat
deriving DecidableEq, Repr

/-- The accumulator lane count N (rules R5, R25): 4 at 128 bits, 8 at 256 bits. -/
def Width.lanes : Width → Nat
  | .w128 => 4
  | .w256 => 8

/-- The group size G (rules R5, R85): 4 for byte-lane, 2 for word-lane. -/
def Source.group : Source → Nat
  | .byte => 4
  | .word => 2

/-- An operation tuple (W, S, T) (rule R13; three components, 90_conflicts.md C1). -/
structure Op where
  width  : Width
  source : Source
  final  : Final
deriving DecidableEq, Repr

/-- A request (rule R60): 771 bits in four fields. -/
structure Request where
  op     : BitVec 3
  addend : Bus
  left   : Bus
  right  : Bus
deriving DecidableEq, Repr

/-- A response (rule R60): 257 bits in two fields. -/
structure Response where
  status : BitVec 1
  result : Bus
deriving DecidableEq, Repr, Inhabited

/-- The eight operations of rule R62, each with its `addend`, `left` and `right` buses. The buses' widths are in the
type, so the lane-count invariants of rule R26 hold of every term, and every term is legal (rules R64, R96). -/
inductive Instr where
  /-- `mwadd.b.128`, rule R100. -/
  | mwaddB128 (addend left right : Bus)
  /-- `mwadds.b.128`, rule R104. -/
  | mwaddsB128 (addend left right : Bus)
  /-- `mwadd.w.128`, rule R101. -/
  | mwaddW128 (addend left right : Bus)
  /-- `mwadds.w.128`, rule R105. -/
  | mwaddsW128 (addend left right : Bus)
  /-- `mwadd.b.256`, rule R102. -/
  | mwaddB256 (addend left right : Bus)
  /-- `mwadds.b.256`, rule R106. -/
  | mwaddsB256 (addend left right : Bus)
  /-- `mwadd.w.256`, rule R103. -/
  | mwaddW256 (addend left right : Bus)
  /-- `mwadds.w.256`, rule R107. -/
  | mwaddsW256 (addend left right : Bus)
deriving DecidableEq, Repr

/-! ## Values and host programs (rules R11, R25, R67) -/

/-- The element types of rule R11. -/
inductive Elem where
  | u8
  | i8
  | i16
  | i32
deriving DecidableEq, Repr

/-- A typed vector value at the value level (rules R11, R25): its element type and its elements, element 0 first. -/
structure TypedVec where
  elem  : Elem
  elems : List Int
deriving DecidableEq, Repr

/-- The vector types of the host notation (rule R67). -/
inductive VType where
  | i32x4
  | i32x8
  | u8x16
  | u8x32
  | i8x16
  | i8x32
  | i16x8
  | i16x16
deriving DecidableEq, Repr

/-- The element type a vector type names (rule R67). -/
def VType.elem : VType → Elem
  | .i32x4 | .i32x8 => .i32
  | .u8x16 | .u8x32 => .u8
  | .i8x16 | .i8x32 => .i8
  | .i16x8 | .i16x16 => .i16

/-- The element count a vector type names (rule R67). -/
def VType.count : VType → Nat
  | .i32x4 => 4
  | .i32x8 | .i16x8 => 8
  | .u8x16 | .i8x16 | .i16x16 => 16
  | .u8x32 | .i8x32 => 32

/-- The statements of the host notation (rule R67). -/
inductive Stmt where
  /-- `vname "=" vtype "[" int ("," int)* "]"`: bind a literal. -/
  | literal (vd : String) (ty : VType) (elems : List Int)
  /-- `vname "=" mnemonic vname "," vname "," vname`: issue one request and wait. -/
  | issue (vd : String) (op : Op) (va vl vr : String)
  /-- `br.nocap label`. -/
  | brNocap (label : String)
  /-- `br label`. -/
  | br (label : String)
  /-- `halt`. -/
  | halt
deriving DecidableEq, Repr

/-- A line of the host notation (rule R67). -/
inductive Line where
  | label (name : String)
  | stmt (s : Stmt)
deriving DecidableEq, Repr

/-- A host program (rule R67). -/
abbrev Program := List Line

end Sys2Proof
end

