-- ==== Sys2Proof/Decode.lean ====
section
/-! DEFINITION. The decoder and the encoder of requests (rules R60 to R65): the op field, the 771-bit request word and
the mnemonics (rule R66). Every word of a request decodes (rule R64); text is read, and rejected by name, in
Machine/Listing.lean. -/

namespace Sys2Proof

/-! ## The op field (rules R61, R62) -/

/-- The operation tuple the op field's three bits name (rule R61): op[2] is W, op[1] is S, op[0] is T. -/
def decodeOp (op : BitVec 3) : Op where
  width := if op.getLsbD 2 then .w256 else .w128
  source := if op.getLsbD 1 then .word else .byte
  final := if op.getLsbD 0 then .sat else .wrap

/-- The bit of rule R61 for a width. -/
def Width.bit : Width → Bool
  | .w128 => false
  | .w256 => true

/-- The bit of rule R61 for a source element kind. -/
def Source.bit : Source → Bool
  | .byte => false
  | .word => true

/-- The bit of rule R61 for a final combination. -/
def Final.bit : Final → Bool
  | .wrap => false
  | .sat => true

/-- The op field of an operation tuple (rule R61). -/
def encodeOp (o : Op) : BitVec 3 :=
  BitVec.ofBool o.width.bit ++ BitVec.ofBool o.source.bit ++ BitVec.ofBool o.final.bit

/-- The instruction of a request: the row of rule R62 is chosen from `op` alone, and all eight values are defined
(rule R64), so no request is rejected. -/
def decode (r : Request) : Instr :=
  match decodeOp r.op with
  | ⟨.w128, .byte, .wrap⟩ => .mwaddB128 r.addend r.left r.right
  | ⟨.w128, .byte, .sat⟩ => .mwaddsB128 r.addend r.left r.right
  | ⟨.w128, .word, .wrap⟩ => .mwaddW128 r.addend r.left r.right
  | ⟨.w128, .word, .sat⟩ => .mwaddsW128 r.addend r.left r.right
  | ⟨.w256, .byte, .wrap⟩ => .mwaddB256 r.addend r.left r.right
  | ⟨.w256, .byte, .sat⟩ => .mwaddsB256 r.addend r.left r.right
  | ⟨.w256, .word, .wrap⟩ => .mwaddW256 r.addend r.left r.right
  | ⟨.w256, .word, .sat⟩ => .mwaddsW256 r.addend r.left r.right

/-- The request of an instruction, from the opcode map of rule R62. -/
def encode : Instr → Request
  | .mwaddB128 a l r => ⟨0b000#3, a, l, r⟩
  | .mwaddsB128 a l r => ⟨0b001#3, a, l, r⟩
  | .mwaddW128 a l r => ⟨0b010#3, a, l, r⟩
  | .mwaddsW128 a l r => ⟨0b011#3, a, l, r⟩
  | .mwaddB256 a l r => ⟨0b100#3, a, l, r⟩
  | .mwaddsB256 a l r => ⟨0b101#3, a, l, r⟩
  | .mwaddW256 a l r => ⟨0b110#3, a, l, r⟩
  | .mwaddsW256 a l r => ⟨0b111#3, a, l, r⟩

/-- The operation tuple of an instruction (rules R13, R62). -/
def Instr.op : Instr → Op
  | .mwaddB128 _ _ _ => ⟨.w128, .byte, .wrap⟩
  | .mwaddsB128 _ _ _ => ⟨.w128, .byte, .sat⟩
  | .mwaddW128 _ _ _ => ⟨.w128, .word, .wrap⟩
  | .mwaddsW128 _ _ _ => ⟨.w128, .word, .sat⟩
  | .mwaddB256 _ _ _ => ⟨.w256, .byte, .wrap⟩
  | .mwaddsB256 _ _ _ => ⟨.w256, .byte, .sat⟩
  | .mwaddW256 _ _ _ => ⟨.w256, .word, .wrap⟩
  | .mwaddsW256 _ _ _ => ⟨.w256, .word, .sat⟩

/-! ## The request word and the response word (rule R60) -/

/-- The 771 bits of a request: `op` [770:768], `addend` [767:512], `left` [511:256], `right` [255:0] (rule R60). -/
def Request.toBits (r : Request) : BitVec 771 := r.op ++ r.addend ++ r.left ++ r.right

/-- The fields of a 771-bit request word (rule R60). -/
def Request.ofBits (w : BitVec 771) : Request where
  op := w.extractLsb' 768 3
  addend := w.extractLsb' 512 256
  left := w.extractLsb' 256 256
  right := w.extractLsb' 0 256

/-- The 257 bits of a response: `status` [256], `result` [255:0] (rule R60). -/
def Response.toBits (r : Response) : BitVec 257 := r.status ++ r.result

/-- The fields of a 257-bit response word (rule R60). -/
def Response.ofBits (w : BitVec 257) : Response where
  status := w.extractLsb' 256 1
  result := w.extractLsb' 0 256

/-- The instruction of a 771-bit request word. -/
def decodeWord (w : BitVec 771) : Instr := decode (Request.ofBits w)

/-- The 771-bit request word of an instruction. -/
def encodeWord (i : Instr) : BitVec 771 := (encode i).toBits

/-- The request whose op field is the low three bits of a word of the opcode table, every operand bit 0. The table
numbers the bits of the op field alone (its mask is 0b111), so bits above bit 2 of a table word are no bits of a
request and select nothing (rule R62: the rule is selected from `op` alone). DESIGN CHOICE, log 14. -/
def Request.ofTableWord (w : Nat) : Request := ⟨BitVec.ofNat 3 w, 0#256, 0#256, 0#256⟩

/-- The instruction the decoder reads from a word of spec/opcode_table.json, the operands all zero. -/
def decodeTableWord (_nbits w : Nat) : Option Instr := some (decode (Request.ofTableWord w))

/-! ## Mnemonics (rules R62, R66) -/

/-- The mnemonic of an operation (rule R66): `mwadd` or `mwadds`, then `.b` or `.w`, then `.128` or `.256`. -/
def Op.mnemonic (o : Op) : String :=
  (match o.final with
    | .wrap => "mwadd"
    | .sat => "mwadds") ++
  (match o.source with
    | .byte => ".b"
    | .word => ".w") ++
  (match o.width with
    | .w128 => ".128"
    | .w256 => ".256")

/-- The eight operations, in the order of their op values (rule R62). -/
def Op.all : List Op :=
  [⟨.w128, .byte, .wrap⟩, ⟨.w128, .byte, .sat⟩, ⟨.w128, .word, .wrap⟩, ⟨.w128, .word, .sat⟩,
    ⟨.w256, .byte, .wrap⟩, ⟨.w256, .byte, .sat⟩, ⟨.w256, .word, .wrap⟩, ⟨.w256, .word, .sat⟩]

/-- The operation a mnemonic names, none for any other text (rule R66). -/
def Op.ofMnemonic (m : String) : Option Op := Op.all.find? fun o => o.mnemonic == m

end Sys2Proof
end

