-- ==== Sys2Proof/Machine/Operands.lean ====
section
/-! DEFINITION. The lanes of the vector buses: extraction (rule R63), packing (rule R28) and the two halves that rule
R94 speaks of. -/

namespace Sys2Proof.Machine

/-- `lane32(bus, j)` (rule R63): the signed 32-bit lane j. -/
def lane32 (bus : Bus) (j : Nat) : Int := (bus.extractLsb' (32 * j) 32).toInt

/-- `u8lane(bus, k)` (rule R63): the unsigned byte k. -/
def u8lane (bus : Bus) (k : Nat) : Int := (bus.extractLsb' (8 * k) 8).toNat

/-- `i8lane(bus, k)` (rule R63): the signed byte k. -/
def i8lane (bus : Bus) (k : Nat) : Int := (bus.extractLsb' (8 * k) 8).toInt

/-- `i16lane(bus, k)` (rule R63): the signed 16-bit word k. -/
def i16lane (bus : Bus) (k : Nat) : Int := (bus.extractLsb' (16 * k) 16).toInt

/-- The elements of `left` (rule R86): bytes are read unsigned, words signed. -/
def leftLane : Source → Bus → Nat → Int
  | .byte => u8lane
  | .word => i16lane

/-- The elements of `right` (rule R86): bytes and words are read signed. -/
def rightLane : Source → Bus → Nat → Int
  | .byte => i8lane
  | .word => i16lane

/-- Element k of a vector of w-bit elements at bits [wk+w-1 : wk] of a bus, the other bits 0 (rule R28). -/
def packLanes (w : Nat) : List Int → Bus
  | [] => 0#256
  | v :: vs => BitVec.ofNat 256 (v % 2 ^ w).toNat ||| (packLanes w vs <<< w)

/-- `pack32` (rule R28): bits [32j+31 : 32j] hold `r[j] mod 2^32`, and the other bits are 0. -/
def pack32 (r : List Int) : Bus := packLanes 32 r

/-- The first `n` 32-bit lanes of a bus, lane 0 first. -/
def lanes32 (n : Nat) (bus : Bus) : List Int := (List.range n).map (lane32 bus)

/-- `X_lo` of rule R94: bits [127:0], the upper half 0. -/
def lowHalf (bus : Bus) : Bus := (bus.extractLsb' 0 128).setWidth 256

/-- `X_hi` of rule R94: bits [255:128] placed in bits [127:0], the upper half 0. -/
def highHalf (bus : Bus) : Bus := (bus.extractLsb' 128 128).setWidth 256

end Sys2Proof.Machine
end

