-- ==== Sys2Proof/Machine/Datapath.lean ====
section
/-! DEFINITION. The datapath (rules R85 to R92): the lane grouper, the widening multiplier with its group adder, and
the saturating adder with its wrapping mode, on exact integers (rule R7). -/

namespace Sys2Proof.Machine

/-- `wrap32` (rule R10): the value in [INT32_MIN, INT32_MAX] that is congruent modulo 2^32. -/
def wrap32 (x : Int) : Int := x.bmod (2 ^ 32)

/-- `sat32` (rule R10): the clamp to [INT32_MIN, INT32_MAX]. -/
def sat32 (x : Int) : Int :=
  if x > int32Max then int32Max else if x < int32Min then int32Min else x

/-- The final combination (rules R89, R90). -/
def combine : Final → Int → Int
  | .wrap => wrap32
  | .sat => sat32

/-- `saturating_add_i32(a, b)` (rule R91), for i32 values a and b. -/
def saturatingAddI32 (a b : Int) : Int := sat32 (a + b)

/-- The exact product of element j of `left` and of `right` (rule R87). -/
def product (l r : Nat → Int) (j : Nat) : Int := l j * r j

/-- The exact sum of group i (rules R85, R88): the products at indices G·i + k for k below G. -/
def groupSum (g : Nat) (l r : Nat → Int) (i : Nat) : Int :=
  ((List.range g).map fun k => product l r (g * i + k)).sum

/-- The result of lane i (rules R89, R90): the addend lane and the group sum, added exactly and then combined. -/
def laneResult (t : Final) (g : Nat) (a l r : Nat → Int) (i : Nat) : Int :=
  combine t (a i + groupSum g l r i)

/-- The N result lanes (rule R92), from the elements of the three operands. -/
def resultLanes (o : Op) (a l r : Nat → Int) : List Int :=
  (List.range o.width.lanes).map (laneResult o.final o.source.group a l r)

/-- `WMA(W, S, T, addend, left, right)` (rule R92). -/
def wma (o : Op) (addend left right : Bus) : Bus :=
  pack32 (resultLanes o (lane32 addend) (leftLane o.source left) (rightLane o.source right))

end Sys2Proof.Machine
end

