-- ==== Sys2Proof/Config.lean ====
section
/-! DEFINITION. What the spec leaves to an implementation (rule R6) and the values it leaves open: opaque constants,
of which nothing can be proved, gathered as the arguments of the model. -/

namespace Sys2Proof

/-- The arguments of the model: the OPEN parameters of rule R6, and the values 93_implementation_defined.md leaves
open. A test or a statement may take any term of this type; the machine itself takes `Config.chip`. -/
structure Params where
  /-- Strap `CAP_SUPPORTED` (rules R6, R84). -/
  capSupported : Bool
  /-- Strap `CAP_X64` (rules R6, R84). -/
  capX64 : Bool
  /-- `MAX_INFLIGHT`, at least 1 (rules R6, R24): this many more than 1. -/
  extraInflight : Nat
  /-- Stands for `RSP_LATENCY` (rules R6, R137): the edges a request waits at the head of Q before its response is
  offered, for each draw. Any natural number may be drawn, so the wait is finite and nothing else is known of it. -/
  rspLatency : Nat → Nat
  /-- CAPS while reset is asserted (rule R30, U4): any value, for each draw. -/
  freeCaps : Nat → BitVec 2
  /-- `rsp_status` and `rsp_result` while `rsp_valid` = 0 (rule R30, U5): any value, for each draw. -/
  freeRsp : Nat → Response

/-- `MAX_INFLIGHT` (rule R6: natural number, at least 1). -/
def Params.maxInflight (p : Params) : Nat := p.extraInflight + 1

/-- Strap `CAP_SUPPORTED` (rule R6, OPEN). -/
opaque Config.capSupported : Bool

/-- Strap `CAP_X64` (rule R6, OPEN). -/
opaque Config.capX64 : Bool

/-- `MAX_INFLIGHT` less 1 (rule R6, OPEN). -/
opaque Config.extraInflight : Nat

/-- The open response latency (rules R6, R137), for each draw. -/
opaque Config.rspLatency : Nat → Nat

/-- CAPS while reset is asserted (rule R30, U4), for each draw. -/
opaque Config.freeCaps : Nat → BitVec 2

/-- The response data outputs while `rsp_valid` = 0 (rule R30, U5), for each draw. -/
opaque Config.freeRsp : Nat → Response

/-- The arguments the machine runs with. -/
def Config.chip : Params where
  capSupported := Config.capSupported
  capX64 := Config.capX64
  extraInflight := Config.extraInflight
  rspLatency := Config.rspLatency
  freeCaps := Config.freeCaps
  freeRsp := Config.freeRsp

end Sys2Proof
end

