-- ==== Sys2Proof/Machine/State.lean ====
section
/-! DEFINITION. The state of the engine (rule R31), the port levels it reads (rule R70), the record of what it has
delivered, and the reasons a step can stop. -/

namespace Sys2Proof.Machine

/-- The levels of the engine's input signals at one clock edge (rule R70). -/
structure PortIn where
  /-- `rst`, active high. -/
  rst : Bool
  /-- `strap_cap_supported`. -/
  strapCapSupported : Bool
  /-- `strap_cap_x64`. -/
  strapCapX64 : Bool
  /-- `req_valid`. -/
  reqValid : Bool
  /-- `req_op`, `req_addend`, `req_left`, `req_right`. -/
  req : Request
  /-- `rsp_ready`. -/
  rspReady : Bool
deriving DecidableEq, Repr

/-- The levels of the engine's output signals (rule R70). -/
structure PortOut where
  /-- `cap_supported`. -/
  capSupported : Bool
  /-- `cap_x64`. -/
  capX64 : Bool
  /-- `req_ready`. -/
  reqReady : Bool
  /-- `rsp_valid`. -/
  rspValid : Bool
  /-- `rsp_status` and `rsp_result`. -/
  rsp : Response
deriving DecidableEq, Repr

/-- The spec's own state of the engine (rule R31), the view of `State` that the abstract steps of rule R70 work on. -/
structure EngineState where
  caps    : BitVec 2
  q       : List Request
  inReset : Bool
deriving DecidableEq, Repr

/-- The state of the machine. `caps`, `q` and `inReset` are the spec's (rule R31). The rest is the model's own: the
wait that stands for the open latency, the last unaccepted offer, the port levels to come, the responses delivered,
and the index at which free values are taken. -/
structure State where
  /-- CAPS (rule R23): bit 0 is SUPPORTED, bit 1 is X64. -/
  caps : BitVec 2
  /-- Q (rule R24): requests accepted whose response is not yet delivered, oldest first. -/
  q : List Request
  /-- Whether reset is asserted (rules R31, R130, R131). -/
  inReset : Bool
  /-- Edges before the head's response is offered (the open `RSP_LATENCY`, rules R6 and R137). MODEL's own, log 3. -/
  rspWait : Nat
  /-- The request offered and not accepted at the last edge (rule R134). MODEL's own, log 10. -/
  held : Option Request
  /-- The input levels at the coming clock edges (rule R70). MODEL's own, log 1. -/
  inputs : List PortIn
  /-- The responses delivered, oldest first (rules R43, R45). MODEL's own, log 13. -/
  delivered : List Response
  /-- The index of the next free value. MODEL's own, log 21. -/
  draws : Nat
deriving DecidableEq, Repr

/-- The reasons to stop with a fault. -/
inductive Fault where
  /-- Rules R110, R111, R114: a value-level call is made while the gate is false; raised by `Call.run` alone, which
  then binds no value. On the bus the same event is a response with status 1 and the engine goes on. Safe. -/
  | unsupportedOperation
deriving DecidableEq, Repr

/-- The reasons to refuse: none is a response of the hardware (rule R114). -/
inductive Refusal where
  /-- An instruction without a meaning in this model; no arm of `exec` raises it. Safe. -/
  | notModelled (mnemonic : String)
  /-- Rule R134, U7: the host changed or withdrew a request before it was accepted; raised by a clock edge. Safe. -/
  | unstableRequest
  /-- Rule R114: the lane counts of a value-level call break rule R26; raised by `Call.run`. Safe. -/
  | laneCount
  /-- Rule R114: an element of a value-level call lies outside its type's range; raised by `Call.run`. Safe. -/
  | elementRange
  /-- Rule R114: an operand of a value-level call has not the element type of rule R25; raised by `Call.run`. Safe. -/
  | elementType
  /-- Rule R68: a literal's element count or range does not match its type; raised by a host program step. Safe. -/
  | badLiteral
  /-- Rule R68: an issue line's operand has not the type of rule R25, or names no value; raised by a host program
  step. Safe. -/
  | badOperand
  /-- Rule R68: a branch names a label that no line declares; raised by a host program step. Safe. -/
  | unknownLabel
deriving DecidableEq, Repr

/-- CAPS from its two bits (rule R23): SUPPORTED is bit 0 and X64 is bit 1. -/
def capsWord (supported x64 : Bool) : BitVec 2 := BitVec.ofBool x64 ++ BitVec.ofBool supported

/-- The machine at reset release (rules R30, R131): CAPS holds the straps, Q is empty and reset is not asserted. The
model's own fields are empty or 0 (DESIGN CHOICE, log 6). -/
def State.reset : State where
  caps := capsWord Config.capSupported Config.capX64
  q := []
  inReset := false
  rspWait := 0
  held := none
  inputs := []
  delivered := []
  draws := 0

/-- The spec's `EngineState` (rule R31) of a state. -/
def State.engine (s : State) : EngineState := ⟨s.caps, s.q, s.inReset⟩

end Sys2Proof.Machine
end

