-- ==== Sys2Proof/Machine/Flags.lean ====
section
/-! DEFINITION. The capability bits and the status bit. The engine has no flags (rule R22); the response's `status` is
the only status of a transaction, and it reports the gate alone. -/

namespace Sys2Proof.Machine

/-- CAPS.SUPPORTED (rules R23, R80): bit 0 of CAPS, the signal `cap_supported`. -/
def State.capSupported (s : State) : Bool := s.caps.getLsbD 0

/-- CAPS.X64 (rules R23, R81): bit 1 of CAPS, the signal `cap_x64`; it gates nothing. -/
def State.capX64 (s : State) : Bool := s.caps.getLsbD 1

/-- Status 0 (rule R110): OK. -/
def statusOk : BitVec 1 := 0#1

/-- Status 1 (rule R110): `UnsupportedOperation`. -/
def statusUnsupported : BitVec 1 := 1#1

end Sys2Proof.Machine
end

