-- ==== Sys2Proof/Machine/Ops.lean ====
section
/-! DEFINITION. The shared operations: answering a request, the one exception (rules R110 to R113, R117), the response
function F of rule R43, reset (rules R130, R131), and the port's outputs and transfers (rule R70). The engine has no
memory (rule R40) and no registers (rule R20), so there are no operations over them. -/

namespace Sys2Proof.Machine

/-! ## Answering a request -/

/-- `respond(status, result)` (rule R12): deliver one response. -/
def State.respond (status : BitVec 1) (result : Bus) (s : State) : State :=
  { s with delivered := s.delivered ++ [⟨status, result⟩] }

/-- `raise UnsupportedOperation()` (rules R12, R111, R117): deliver status 1, the result bus driven to zero. Nothing is
saved, no mode or mask changes and no control flow is redirected, and there is no return (rule R118). -/
def State.raiseUnsupported (s : State) : State := s.respond statusUnsupported 0#256

/-- Execute one operation (rule R111): the gate first, then the datapath. -/
def runGated (o : Op) (addend left right : Bus) (s : State) : State :=
  if s.capSupported then s.respond statusOk (wma o addend left right) else s.raiseUnsupported

/-- The function F of rule R43: a response depends on CAPS.SUPPORTED and the request alone. -/
def response (supported : Bool) (r : Request) : Response :=
  if supported then ⟨statusOk, wma (decodeOp r.op) r.addend r.left r.right⟩ else ⟨statusUnsupported, 0#256⟩

/-! ## Reset (rules R30, R130, R131) -/

/-- Reset asserted (rule R130): Q is emptied without responses; CAPS is any value (rule R30). -/
def State.assertReset (p : Params) (s : State) : State :=
  { s with caps := p.freeCaps s.draws, q := [], inReset := true, rspWait := 0 }

/-- Reset released (rule R131): CAPS takes the straps. -/
def State.release (supported x64 : Bool) (s : State) : State :=
  { s with caps := capsWord supported x64, inReset := false }

/-- The effect of the level of `rst` (rules R130, R131), before any transfer at the edge. -/
def State.settle (p : Params) (inp : PortIn) (s : State) : State :=
  if inp.rst then s.assertReset p
  else if s.inReset then s.release inp.strapCapSupported inp.strapCapX64
  else s

/-! ## The port (rule R70) -/

/-- `req_ready` (rule R70): 1 exactly when reset is not asserted and Q is not full. -/
def State.reqReady (p : Params) (s : State) : Bool := !s.inReset && decide (s.q.length < p.maxInflight)

/-- `rsp_valid` (rule R70): 1 only when Q is not empty, and 1 once the head's wait is over. -/
def State.rspValid (s : State) : Bool := !s.inReset && !s.q.isEmpty && s.rspWait == 0

/-- `rsp_status` and `rsp_result` (rule R70): the response of the head of Q while `rsp_valid` = 1, and any value
otherwise (rule R30, U5). -/
def State.rspData (p : Params) (s : State) : Response :=
  match s.rspValid, s.q with
  | true, r :: _ => response s.capSupported r
  | _, _ => p.freeRsp s.draws

/-- The output signals (rule R70) of a state whose reset level is settled. -/
def State.outputs (p : Params) (s : State) : PortOut where
  capSupported := s.capSupported
  capX64 := s.capX64
  reqReady := s.reqReady p
  rspValid := s.rspValid
  rsp := s.rspData p

/-- The host keeps an unaccepted request unchanged (rule R134). -/
def State.stable (inp : PortIn) (s : State) : Bool :=
  match s.held with
  | none => true
  | some r => inp.reqValid && inp.req == r

/-- A request is accepted at this edge (rule R70). -/
def State.accepts (p : Params) (inp : PortIn) (s : State) : Bool := inp.reqValid && s.reqReady p

/-- A response is delivered at this edge (rule R70). -/
def State.delivers (inp : PortIn) (s : State) : Bool := s.rspValid && inp.rspReady

/-- Q after the transfers of an edge (rule R70): the head removed if its response was delivered, the new request
appended if it was accepted; one edge may do both. -/
def State.nextQ (p : Params) (inp : PortIn) (delivered : Bool) (s : State) : List Request :=
  (if delivered then s.q.tail else s.q) ++ (if s.accepts p inp then [inp.req] else [])

/-- The wait after an edge: a new head draws one, an old head's runs down (rule R137, log 3). -/
def State.nextWait (p : Params) (inp : PortIn) (delivered : Bool) (s : State) : Nat :=
  if (s.nextQ p inp delivered).isEmpty then 0
  else if delivered || s.q.isEmpty then p.rspLatency s.draws
  else s.rspWait - 1

/-- The end of an edge: Q, the wait, the offer left unaccepted (rule R134), and the next free value's index. -/
def State.endEdge (p : Params) (inp : PortIn) (delivered : Bool) (s : State) : State :=
  { s with
    q := s.nextQ p inp delivered
    rspWait := s.nextWait p inp delivered
    held := if inp.reqValid && !s.accepts p inp then some inp.req else none
    draws := s.draws + 1 }

end Sys2Proof.Machine
end

