-- ==== Sys2Proof/Machine/Saturating.lean ====
section
/-! DEFINITION. MultiplyWideningAndAddSaturate, the four saturating operations
(43_multiply_widening_add_saturate.md). -/

namespace Sys2Proof.Machine

/-- `mwadds.b.128` (rule R104). -/
def execMwaddsB128 (addend left right : Bus) (s : State) : Host.Outcome State Fault Refusal :=
  .next (runGated ⟨.w128, .byte, .sat⟩ addend left right s)

/-- `mwadds.w.128` (rule R105). -/
def execMwaddsW128 (addend left right : Bus) (s : State) : Host.Outcome State Fault Refusal :=
  .next (runGated ⟨.w128, .word, .sat⟩ addend left right s)

/-- `mwadds.b.256` (rule R106). -/
def execMwaddsB256 (addend left right : Bus) (s : State) : Host.Outcome State Fault Refusal :=
  .next (runGated ⟨.w256, .byte, .sat⟩ addend left right s)

/-- `mwadds.w.256` (rule R107). -/
def execMwaddsW256 (addend left right : Bus) (s : State) : Host.Outcome State Fault Refusal :=
  .next (runGated ⟨.w256, .word, .sat⟩ addend left right s)

end Sys2Proof.Machine
end

