-- ==== Sys2Proof/Machine/Wrapping.lean ====
section
/-! DEFINITION. MultiplyWideningAndAdd, the four wrapping operations (42_multiply_widening_add.md). -/

namespace Sys2Proof.Machine

/-- `mwadd.b.128` (rule R100). -/
def execMwaddB128 (addend left right : Bus) (s : State) : Host.Outcome State Fault Refusal :=
  .next (runGated ⟨.w128, .byte, .wrap⟩ addend left right s)

/-- `mwadd.w.128` (rule R101). -/
def execMwaddW128 (addend left right : Bus) (s : State) : Host.Outcome State Fault Refusal :=
  .next (runGated ⟨.w128, .word, .wrap⟩ addend left right s)

/-- `mwadd.b.256` (rule R102). -/
def execMwaddB256 (addend left right : Bus) (s : State) : Host.Outcome State Fault Refusal :=
  .next (runGated ⟨.w256, .byte, .wrap⟩ addend left right s)

/-- `mwadd.w.256` (rule R103). -/
def execMwaddW256 (addend left right : Bus) (s : State) : Host.Outcome State Fault Refusal :=
  .next (runGated ⟨.w256, .word, .wrap⟩ addend left right s)

end Sys2Proof.Machine
end

