-- ==== Sys2Proof/Machine/Dispatch.lean ====
section
/-! DEFINITION. The dispatch: one arm per instruction of the opcode table. -/

namespace Sys2Proof.Machine

/-- Execute one request (rule R111): its whole effect is the response it is given (rule R43). -/
def exec (i : Instr) (s : State) : Host.Outcome State Fault Refusal :=
  match i with
  | .mwaddB128 addend left right => Sys2Proof.Machine.execMwaddB128 addend left right s
  | .mwaddsB128 addend left right => Sys2Proof.Machine.execMwaddsB128 addend left right s
  | .mwaddW128 addend left right => Sys2Proof.Machine.execMwaddW128 addend left right s
  | .mwaddsW128 addend left right => Sys2Proof.Machine.execMwaddsW128 addend left right s
  | .mwaddB256 addend left right => Sys2Proof.Machine.execMwaddB256 addend left right s
  | .mwaddsB256 addend left right => Sys2Proof.Machine.execMwaddsB256 addend left right s
  | .mwaddW256 addend left right => Sys2Proof.Machine.execMwaddW256 addend left right s
  | .mwaddsW256 addend left right => Sys2Proof.Machine.execMwaddsW256 addend left right s

end Sys2Proof.Machine
end

