-- ==== Sys2Proof/Machine/Port.lean ====
section
/-! DEFINITION. One clock edge of the engine (rule R70), and runs of edges. -/

namespace Sys2Proof.Machine

/-- The transfers of one edge, once the reset level is settled (rule R70): if a response is delivered, the head of Q is
executed; then Q and the port's bookkeeping move on. -/
def transfer (p : Params) (inp : PortIn) (s : State) : Host.Outcome State Fault Refusal :=
  match s.delivers inp, s.q with
  | true, r :: _ =>
    match exec (decode r) s with
    | .next t => .next (t.endEdge p inp true)
    | .fault f => .fault f
    | .refused w => .refused w
  | _, _ => .next (s.endEdge p inp false)

/-- One clock edge (rules R70, R130, R131, R134). -/
def clockEdge (p : Params) (inp : PortIn) (s : State) : Host.Outcome State Fault Refusal :=
  if s.stable inp then transfer p inp (s.settle p inp) else .refused .unstableRequest

/-- The output signals seen at a clock edge (rule R70): those of the settled state. -/
def outputsAt (p : Params) (inp : PortIn) (s : State) : PortOut := (s.settle p inp).outputs p

/-- Edges one after another, stopping at the first that does not answer a next state. -/
def runEdges (p : Params) : List PortIn → State → Host.Outcome State Fault Refusal
  | [], s => .next s
  | inp :: rest, s =>
    match clockEdge p inp s with
    | .next t => runEdges p rest t
    | .fault f => .fault f
    | .refused w => .refused w

/-- One step: the next clock edge of the port levels to come. With none to come no edge happens and nothing changes
(log 1). -/
def clockStep (p : Params) (s : State) : Host.Outcome State Fault Refusal :=
  match s.inputs with
  | [] => .next s
  | inp :: rest => clockEdge p inp { s with inputs := rest }

/-- An edge at which the host offers nothing and takes a response. -/
def takeEdge (p : Params) : PortIn where
  rst := false
  strapCapSupported := p.capSupported
  strapCapX64 := p.capX64
  reqValid := false
  req := ⟨0#3, 0#256, 0#256, 0#256⟩
  rspReady := true

/-- An edge at which the host offers a request and takes a response. -/
def offerEdge (p : Params) (r : Request) : PortIn :=
  { takeEdge p with reqValid := true, req := r }

/-- A request placed where the next step executes it: at the head of Q (in place of the head, if there is one), its
response offered, the next edge one that takes it. -/
def State.withRequest (p : Params) (r : Request) (s : State) : State :=
  { s with
    q := r :: s.q.tail
    inReset := false
    rspWait := 0
    held := none
    inputs := takeEdge p :: s.inputs }

end Sys2Proof.Machine
end

