-- ==== Sys2Proof/Machine/Step.lean ====
section
/-! DEFINITION. The step function of the machine. -/

namespace Sys2Proof.Machine

/-- One step of the machine: its next clock edge, with the chip's own arguments. -/
def step (s : State) : Host.Outcome State Fault Refusal := clockStep Config.chip s

/-- The state with a request of the opcode table's word where the next step executes it (log 2). -/
def State.withFetchWord (s : State) (_nbits w : Nat) : State :=
  s.withRequest Config.chip (Request.ofTableWord w)

end Sys2Proof.Machine
end

