-- ==== Sys2Proof/Machine/Abstract.lean ====
section
/-! DEFINITION. The abstract steps of rule R70 over the spec's own `EngineState` (rule R31): Accept, Deliver, Reset and
the release step of rule R131. -/

namespace Sys2Proof.Machine

/-- The abstract steps of rules R70, R130 and R131. -/
inductive Move where
  /-- `Accept(req)` (rule R70). -/
  | accept (r : Request)
  /-- `Deliver` (rule R70). -/
  | deliver
  /-- `Reset` (rule R130), with the value CAPS shows while reset is asserted (rule R30: any value). -/
  | reset (caps : BitVec 2)
  /-- The release step (rule R131), with the straps' values. -/
  | release (straps : BitVec 2)
deriving DecidableEq, Repr

/-- One abstract step: none where it is not enabled, otherwise the next engine state and the responses it delivers. -/
def Move.apply (maxInflight : Nat) (e : EngineState) : Move → Option (EngineState × List Response)
  | .accept r =>
    if !e.inReset && decide (e.q.length < maxInflight) then some (⟨e.caps, e.q ++ [r], e.inReset⟩, []) else none
  | .deliver =>
    match e.q with
    | [] => none
    | r :: rest => some (⟨e.caps, rest, e.inReset⟩, [response (e.caps.getLsbD 0) r])
  | .reset caps => some (⟨caps, [], true⟩, [])
  | .release straps => if e.inReset then some (⟨straps, e.q, false⟩, []) else none

/-- Abstract steps one after another, with all the responses they deliver. -/
def runMoves (maxInflight : Nat) : List Move → EngineState → Option (EngineState × List Response)
  | [], e => some (e, [])
  | m :: rest, e =>
    match m.apply maxInflight e with
    | none => none
    | some (e', out) =>
      match runMoves maxInflight rest e' with
      | none => none
      | some (e'', out') => some (e'', out ++ out')

end Sys2Proof.Machine
end

