-- ==== Sys2Proof/WellFormed.lean ====
section
/-! DEFINITION. The checks on terms that can be ill-formed: typed vectors, the operands of a value-level call, and the
literals of a host program. A `Request` or an `Instr` has no ill-formed term (rules R26, R64, R96): its widths are in
its type and every bit pattern is legal. -/

namespace Sys2Proof

/-- Least value of an element type (rules R9, R11). -/
def Elem.least : Elem → Int
  | .u8 => 0
  | .i8 => -128
  | .i16 => -32768
  | .i32 => int32Min

/-- Greatest value of an element type (rules R9, R11). -/
def Elem.greatest : Elem → Int
  | .u8 => 255
  | .i8 => 127
  | .i16 => 32767
  | .i32 => int32Max

/-- The bits of an element type (rule R28). -/
def Elem.bits : Elem → Nat
  | .u8 | .i8 => 8
  | .i16 => 16
  | .i32 => 32

/-- Every element lies in its type's range (rule R114, second case). -/
def TypedVec.inRange (v : TypedVec) : Bool :=
  v.elems.all fun x => decide (v.elem.least ≤ x) && decide (x ≤ v.elem.greatest)

/-- The element type of `left` (rule R25). -/
def Source.leftElem : Source → Elem
  | .byte => .u8
  | .word => .i16

/-- The element type of `right` (rule R25; 90_conflicts.md C2). -/
def Source.rightElem : Source → Elem
  | .byte => .i8
  | .word => .i16

/-- The narrow element count G·N of `left` and `right` (rules R5, R27). -/
def Op.narrowCount (o : Op) : Nat := o.source.group * o.width.lanes

/-- A value-level call: an operation and its three typed operands (rule R114). -/
structure Call where
  op     : Op
  addend : TypedVec
  left   : TypedVec
  right  : TypedVec
deriving DecidableEq, Repr

/-- The lane counts keep rule R26. -/
def Call.countsOk (c : Call) : Bool :=
  c.addend.elems.length == c.op.width.lanes && c.left.elems.length == c.op.narrowCount
    && c.right.elems.length == c.op.narrowCount

/-- Every operand's elements lie in their types' ranges (rule R114). -/
def Call.rangesOk (c : Call) : Bool :=
  c.addend.inRange && c.left.inRange && c.right.inRange

/-- The operands' element types are those of rule R25. -/
def Call.typesOk (c : Call) : Bool :=
  c.addend.elem == .i32 && c.left.elem == c.op.source.leftElem && c.right.elem == c.op.source.rightElem

/-- A call that keeps all the preconditions of rule R114. -/
def Call.wf (c : Call) : Bool := c.countsOk && c.rangesOk && c.typesOk

/-- A literal's element count and ranges match its type (rule R68). -/
def VType.literalOk (ty : VType) (elems : List Int) : Bool :=
  elems.length == ty.count && TypedVec.inRange ⟨ty.elem, elems⟩

end Sys2Proof
end

