-- ==== Sys2Proof/Machine/ValueLevel.lean ====
section
/-! DEFINITION. The operations on typed lists (rules R25, R26, R114): a call that breaks a precondition is refused, a
call while the gate is false is the fault `UnsupportedOperation` with no value (rule R111), and any other call has the
result of rule R92. Also the packing of a call into the request of rule R69. -/

namespace Sys2Proof.Machine

/-- Element k of a list of elements. -/
def elemAt (xs : List Int) (k : Nat) : Int := xs.getD k 0

/-- The result of a well-formed call (rules R92, R25). -/
def Call.result (c : Call) : TypedVec :=
  ⟨.i32, resultLanes c.op (elemAt c.addend.elems) (elemAt c.left.elems) (elemAt c.right.elems)⟩

/-- A value-level call (rule R114, in the order the rule lists its cases; then rule R111). -/
def Call.run (supported : Bool) (c : Call) : Host.Outcome TypedVec Fault Refusal :=
  if !c.countsOk then .refused .laneCount
  else if !c.rangesOk then .refused .elementRange
  else if !c.typesOk then .refused .elementType
  else if !supported then .fault .unsupportedOperation
  else .next (Call.result c)

/-- A typed vector on a bus (rules R28, R69). -/
def packVec (v : TypedVec) : Bus := packLanes v.elem.bits v.elems

/-- The request of a call (rules R60, R69): its buses packed, so that the upper halves are zero for W = 128. -/
def Call.request (c : Call) : Request :=
  ⟨encodeOp c.op, packVec c.addend, packVec c.left, packVec c.right⟩

/-- The call a request stands for (rules R25, R63, R68): its buses read as typed vectors of the operation's counts. -/
def requestCall (r : Request) : Call :=
  let o := decodeOp r.op
  ⟨o, ⟨.i32, lanes32 o.width.lanes r.addend⟩,
    ⟨o.source.leftElem, (List.range o.narrowCount).map (leftLane o.source r.left)⟩,
    ⟨o.source.rightElem, (List.range o.narrowCount).map (rightLane o.source r.right)⟩⟩

/-- A result bus read as `i32xN` by `lane32` (rule R68). -/
def resultVec (o : Op) (bus : Bus) : TypedVec := ⟨.i32, lanes32 o.width.lanes bus⟩

end Sys2Proof.Machine
end

