-- ==== Sys2Proof/Machine/HostProgram.lean ====
section
/-! DEFINITION. Host programs (rules R67, R68): the host's own state beside one engine, and one step of the two
together. The host drives the engine's port; an issue line offers its request until it is accepted and then takes
responses until its own arrives. -/

namespace Sys2Proof.Machine

/-- The host's named values (rule R68). -/
abbrev HostMap := List (String × TypedVec)

/-- The value a name is bound to. -/
def lookupName (env : HostMap) (name : String) : Option TypedVec := env.lookup name

/-- Bind a name, in place of its earlier value if it has one (rule R68). -/
def bindName (name : String) (v : TypedVec) : HostMap → HostMap
  | [] => [(name, v)]
  | (n, w) :: rest => if n = name then (n, v) :: rest else (n, w) :: bindName name v rest

/-- The status of a host program (rule R68). -/
inductive HostStatus where
  | running
  | halted
  /-- Faulted at a line, the first line being 1 (rule R68, as 95_test_vectors.md P3b counts). -/
  | faulted (line : Nat)
deriving DecidableEq, Repr

/-- Where an issue line stands. -/
inductive IssuePhase where
  /-- No request of the host is in progress. -/
  | idle
  /-- The request is offered and not yet accepted. -/
  | offering (vd : String) (op : Op) (req : Request)
  /-- The request is accepted; `ahead` earlier responses come before its own (rule R45). -/
  | waiting (vd : String) (op : Op) (ahead : Nat)
deriving DecidableEq, Repr

/-- The host's state (rule R68), with the phase of its issue line. -/
structure HostState where
  env    : HostMap
  /-- The index of the line to run, the first line being 0. -/
  line   : Nat
  status : HostStatus
  phase  : IssuePhase
deriving DecidableEq, Repr

/-- The host at the start of a program: no value is bound. -/
def HostState.start : HostState := ⟨[], 0, .running, .idle⟩

/-- A host and its engine. -/
structure System where
  host   : HostState
  engine : State
deriving DecidableEq, Repr

/-- The index of the line that declares a label, the first if there are several. -/
def findLabel (prog : Program) (name : String) : Option Nat := prog.findIdx? fun l => l == Line.label name

/-- Go to a label (rule R68). -/
def gotoLabel (prog : Program) (name : String) (y : System) : Host.Outcome System Fault Refusal :=
  match findLabel prog name with
  | none => .refused .unknownLabel
  | some k => .next { y with host := { y.host with line := k } }

/-- Go on to the next line. -/
def System.advance (y : System) : System := { y with host := { y.host with line := y.host.line + 1 } }

/-- The call of an issue line, if its operands' types are those of rule R25 (rule R68). -/
def issueCall (env : HostMap) (op : Op) (va vl vr : String) : Option Call :=
  match lookupName env va, lookupName env vl, lookupName env vr with
  | some a, some l, some r =>
    let c : Call := ⟨op, a, l, r⟩
    if c.countsOk && c.typesOk then some c else none
  | _, _, _ => none

/-- One statement (rule R68); an issue line's request is offered from the next step on. -/
def runStmt (prog : Program) (st : Stmt) (y : System) : Host.Outcome System Fault Refusal :=
  match st with
  | .literal vd ty elems =>
    if ty.literalOk elems then
      .next (System.advance { y with host := { y.host with env := bindName vd ⟨ty.elem, elems⟩ y.host.env } })
    else .refused .badLiteral
  | .issue vd op va vl vr =>
    match issueCall y.host.env op va vl vr with
    | none => .refused .badOperand
    | some c => .next { y with host := { y.host with phase := .offering vd op (Call.request c) } }
  | .brNocap l => if y.engine.capSupported then .next (System.advance y) else gotoLabel prog l y
  | .br l => gotoLabel prog l y
  | .halt => .next { y with host := { y.host with status := .halted } }

/-- One line (rule R68); running past the last line halts. -/
def runLine (prog : Program) (y : System) : Host.Outcome System Fault Refusal :=
  match prog[y.host.line]? with
  | none => .next { y with host := { y.host with status := .halted } }
  | some (.label _) => .next (System.advance y)
  | some (.stmt st) => runStmt prog st y

/-- The host acts on its request's response (rule R68): status 0 binds `vd` to the result, status 1 stops at the line
with nothing bound. -/
def takeResponse (vd : String) (op : Op) (rsp : Response) (y : System) : System :=
  if rsp.status = statusOk then
    System.advance { y with host :=
      { y.host with env := bindName vd (resultVec op rsp.result) y.host.env, phase := .idle } }
  else { y with host := { y.host with status := .faulted (y.host.line + 1), phase := .idle } }

/-- What a waiting host does after an edge: the response delivered at it, if any, is one of those ahead or its own. -/
def afterTake (vd : String) (op : Op) (ahead : Nat) (before : State) (y : System) : System :=
  match y.engine.delivered.drop before.delivered.length with
  | [] => y
  | rsp :: _ =>
    match ahead with
    | 0 => takeResponse vd op rsp y
    | k + 1 => { y with host := { y.host with phase := .waiting vd op k } }

/-- One step of a host and its engine (rules R67, R68): a line of the program, or one clock edge of an issue line. A
halted or faulted host does nothing more. -/
def systemStep (p : Params) (prog : Program) (y : System) : Host.Outcome System Fault Refusal :=
  match y.host.status, y.host.phase with
  | .running, .idle => runLine prog y
  | .running, .offering vd op req =>
    match clockEdge p (offerEdge p req) y.engine with
    | .next e =>
      if (y.engine.settle p (offerEdge p req)).reqReady p then
        .next ⟨{ y.host with phase := .waiting vd op (e.q.length - 1) }, e⟩
      else .next { y with engine := e }
    | .fault f => .fault f
    | .refused w => .refused w
  | .running, .waiting vd op ahead =>
    match clockEdge p (takeEdge p) y.engine with
    | .next e => .next (afterTake vd op ahead y.engine { y with engine := e })
    | .fault f => .fault f
    | .refused w => .refused w
  | _, _ => .next y

/-- Steps of a host and its engine, stopping at a fault or a refusal. -/
def runSystem (p : Params) (prog : Program) : Nat → System → Host.Outcome System Fault Refusal
  | 0, y => .next y
  | n + 1, y =>
    match systemStep p prog y with
    | .next y' => runSystem p prog n y'
    | .fault f => .fault f
    | .refused w => .refused w

end Sys2Proof.Machine
end

