-- ==== Sys2Proof/Machine/HostText.lean ====
section
/-! DEFINITION. Host programs as text (rules R66, R67): how a line is written, and a reader that is total on any text
and rejects by name what is no line. The rule fixes the grammar; what a name may hold, how an `int` is spelled and where
blanks may stand are the model's choice (log 17). -/

namespace Sys2Proof

/-- The name of a vector type (rule R67). -/
def VType.name : VType → String
  | .i32x4 => "i32x4"
  | .i32x8 => "i32x8"
  | .u8x16 => "u8x16"
  | .u8x32 => "u8x32"
  | .i8x16 => "i8x16"
  | .i8x32 => "i8x32"
  | .i16x8 => "i16x8"
  | .i16x16 => "i16x16"

/-- The vector types of rule R67. -/
def VType.all : List VType := [.i32x4, .i32x8, .u8x16, .u8x32, .i8x16, .i8x32, .i16x8, .i16x16]

/-- The vector type a name stands for, none for any other text. -/
def VType.ofName (n : String) : Option VType := VType.all.find? fun t => t.name == n

/-- An integer in decimal, with `-` before a negative one and no leading zeros (DESIGN CHOICE, log 17). -/
def intText (x : Int) : List Char :=
  if x < 0 then '-' :: Nat.toDigits 10 x.natAbs else Nat.toDigits 10 x.natAbs

/-- Integers with commas between them. -/
def intsText : List Int → List Char
  | [] => []
  | [x] => intText x
  | x :: xs => intText x ++ ',' :: intsText xs

/-- A statement as text (rules R66, R67). -/
def Stmt.text : Stmt → List Char
  | .literal vd ty xs => vd.toList ++ " = ".toList ++ ty.name.toList ++ " [".toList ++ intsText xs ++ "]".toList
  | .issue vd op va vl vr =>
    vd.toList ++ " = ".toList ++ op.mnemonic.toList ++ ' ' :: va.toList ++ ", ".toList ++ vl.toList ++ ", ".toList
      ++ vr.toList
  | .brNocap l => "br.nocap ".toList ++ l.toList
  | .br l => "br ".toList ++ l.toList
  | .halt => "halt".toList

/-- A line as text (rule R67). -/
def Line.text : Line → List Char
  | .label l => l.toList ++ ":".toList
  | .stmt s => s.text

/-- Why a line is rejected. -/
inductive LineError where
  /-- The words of the line fit no line of the grammar of rule R67. -/
  | wrongForm
  /-- A name is empty or holds a character no name may hold. -/
  | badName
  /-- The word after `=` is neither a vector type nor a mnemonic. -/
  | unknownWord
  /-- An element of a literal is no integer, or the list has no end. -/
  | badInteger
deriving DecidableEq, Repr

/-- Blanks part words. -/
def isBlank (c : Char) : Bool := c == ' ' || c == '\t'

/-- Characters that are words of their own (rule R67). -/
def isMark (c : Char) : Bool := c == '=' || c == '[' || c == ']' || c == ',' || c == ':'

/-- The word read so far, if there is one. -/
def flushWord (w : List Char) : List String :=
  match w with
  | [] => []
  | _ :: _ => [String.ofList w.reverse]

/-- The words of a line; the word being read is kept in reverse. -/
def lineWords : List Char → List Char → List String
  | [], w => flushWord w
  | c :: cs, w =>
    if isBlank c then flushWord w ++ lineWords cs []
    else if isMark c then flushWord w ++ String.ofList [c] :: lineWords cs []
    else lineWords cs (c :: w)

/-- A name: letters, digits and `_`, a letter or `_` first. -/
def isName (n : String) : Bool :=
  match n.toList with
  | [] => false
  | c :: cs => (c.isAlpha || c == '_') && cs.all fun d => d.isAlphanum || d == '_'

/-- The value of a decimal digit, none for any other character. -/
def decimalDigit (c : Char) : Option Nat := "0123456789".toList.idxOf? c

/-- Decimal digits onto what has been read. -/
def decimalFrom : Nat → List Char → Option Nat
  | acc, [] => some acc
  | acc, c :: cs =>
    match decimalDigit c with
    | none => none
    | some d => decimalFrom (acc * 10 + d) cs

/-- The integer a word stands for: decimal digits with an optional `-` before them. Leading zeros are taken; a `+`, a
hexadecimal spelling and an empty word are no integer. The grammar does not define `int`: DESIGN CHOICE, log 17. -/
def wordInt (w : String) : Option Int :=
  match w.toList with
  | [] => none
  | ['-'] => none
  | '-' :: ds => (decimalFrom 0 ds).map fun n => -(n : Int)
  | ds => (decimalFrom 0 ds).map fun n => (n : Int)

/-- The integers of a literal, up to its closing bracket, which ends the line. -/
def wordInts : List String → Option (List Int)
  | [w, "]"] => (wordInt w).map fun x => [x]
  | w :: "," :: rest =>
    match wordInt w, wordInts rest with
    | some x, some xs => some (x :: xs)
    | _, _ => none
  | _ => none

/-- Accept a line if its names are names. -/
def withNames (names : List String) (l : Line) : Except LineError Line :=
  if names.all isName then .ok l else .error .badName

/-- The line after `vname "="`: a literal or an issue line. -/
def bindingLine (vd word : String) (rest : List String) : Except LineError Line :=
  match VType.ofName word, Op.ofMnemonic word, rest with
  | some ty, _, "[" :: ws =>
    match wordInts ws with
    | none => .error .badInteger
    | some xs => withNames [vd] (.stmt (.literal vd ty xs))
  | _, some op, [va, ",", vl, ",", vr] => withNames [vd, va, vl, vr] (.stmt (.issue vd op va vl vr))
  | none, none, _ => .error .unknownWord
  | _, _, _ => .error .wrongForm

/-- Read the words of one line (rule R67). -/
def lineOfWords : List String → Except LineError Line
  | [l, ":"] => withNames [l] (.label l)
  | ["halt"] => .ok (.stmt .halt)
  | ["br", l] => withNames [l] (.stmt (.br l))
  | ["br.nocap", l] => withNames [l] (.stmt (.brNocap l))
  | vd :: "=" :: word :: rest => bindingLine vd word rest
  | _ => .error .wrongForm

/-- Read one line of text (rule R67). -/
def Line.parse (cs : List Char) : Except LineError Line := lineOfWords (lineWords cs [])

/-- Read a program (rule R67: `program := { line }`), given as the texts of its lines. -/
def parseProgram : List (List Char) → Except LineError Program
  | [] => .ok []
  | cs :: rest =>
    match Line.parse cs, parseProgram rest with
    | .ok l, .ok ls => .ok (l :: ls)
    | .error e, _ => .error e
    | _, .error e => .error e

end Sys2Proof
end

