-- ==== Sys2Proof/Machine/Listing.lean ====
section
/-! DEFINITION. The request and response listings of rule R69, with a reader that is total on any text and rejects by
name what is no listing. -/

namespace Sys2Proof

open Machine

/-- The hexadecimal digit of a value below 16. -/
def hexDigit (n : Nat) : Char := "0123456789abcdef".toList.getD n '0'

/-- The value of a hexadecimal digit, none for any other character. -/
def hexValue (c : Char) : Option Nat := "0123456789abcdef".toList.idxOf? c

/-- The low `n` hexadecimal digits of a number, most significant first. -/
def hexDigits : Nat → Nat → List Char
  | 0, _ => []
  | n + 1, v => hexDigit (v / 16 ^ n % 16) :: hexDigits n v

/-- Why a listing is rejected. -/
inductive ListingError where
  /-- A fixed part of the form of rule R69 does not stand where it should. -/
  | wrongText
  /-- A digit is missing or is no digit of its field. -/
  | badDigit
  /-- Text is left after the last field. -/
  | trailingText
deriving DecidableEq, Repr

/-- Take fixed text off the front. -/
def takeText : List Char → List Char → Except ListingError (List Char)
  | [], rest => .ok rest
  | _ :: _, [] => .error .wrongText
  | c :: cs, d :: ds => if c = d then takeText cs ds else .error .wrongText

/-- Take `n` digits of a base off the front, most significant first, onto what has been read. -/
def takeDigits (digit : Char → Option Nat) (base : Nat) : Nat → Nat → List Char → Except ListingError (Nat × List Char)
  | 0, acc, rest => .ok (acc, rest)
  | _ + 1, _, [] => .error .badDigit
  | n + 1, acc, c :: cs =>
    match digit c with
    | none => .error .badDigit
    | some d => takeDigits digit base n (acc * base + d) cs

/-- The value of a binary digit. -/
def binValue (c : Char) : Option Nat :=
  if c = '0' then some 0 else if c = '1' then some 1 else none

/-- A bus as `0x` and 64 hexadecimal digits, most significant digit first (rule R69). -/
def Bus.listing (b : Bus) : List Char := "0x".toList ++ hexDigits 64 b.toNat

/-- Read a bus off the front of a listing. -/
def Bus.takeListing (cs : List Char) : Except ListingError (Bus × List Char) := do
  let rest ← takeText "0x".toList cs
  let (v, rest) ← takeDigits hexValue 16 64 0 rest
  return (BitVec.ofNat 256 v, rest)

/-- A request as an issue line writes it (rule R69): for W = 128 the upper halves of its buses are zero. -/
def Request.listed (r : Request) : Request :=
  match (decodeOp r.op).width with
  | .w128 => ⟨r.op, lowHalf r.addend, lowHalf r.left, lowHalf r.right⟩
  | .w256 => r

/-- A binary digit of the op field. -/
def bitChar (b : Bool) : Char := if b then '1' else '0'

/-- The four request fields as text: `op=0bWST A=0x… L=0x… R=0x…` (rule R69). -/
def Request.text (r : Request) : List Char :=
  "op=0b".toList ++ [bitChar (r.op.getLsbD 2), bitChar (r.op.getLsbD 1), bitChar (r.op.getLsbD 0)]
    ++ " A=".toList ++ Bus.listing r.addend
    ++ " L=".toList ++ Bus.listing r.left
    ++ " R=".toList ++ Bus.listing r.right

/-- The listing of an issue line's request (rule R69). -/
def Request.listing (r : Request) : List Char := r.listed.text

/-- The listing of a response: `status=<0|1> result=0x…` (rule R69). -/
def Response.listing (r : Response) : List Char :=
  "status=".toList ++ [bitChar (r.status.getLsbD 0)] ++ " result=".toList ++ Bus.listing r.result

/-- Nothing may stand after the last field. -/
def endText : List Char → Except ListingError Unit
  | [] => .ok ()
  | _ :: _ => .error .trailingText

/-- Read a request listing; any other text is rejected by name. -/
def Request.parse (cs : List Char) : Except ListingError Request := do
  let rest ← takeText "op=0b".toList cs
  let (op, rest) ← takeDigits binValue 2 3 0 rest
  let rest ← takeText " A=".toList rest
  let (a, rest) ← Bus.takeListing rest
  let rest ← takeText " L=".toList rest
  let (l, rest) ← Bus.takeListing rest
  let rest ← takeText " R=".toList rest
  let (r, rest) ← Bus.takeListing rest
  endText rest
  return ⟨BitVec.ofNat 3 op, a, l, r⟩

/-- Read a response listing; any other text is rejected by name. -/
def Response.parse (cs : List Char) : Except ListingError Response := do
  let rest ← takeText "status=".toList cs
  let (st, rest) ← takeDigits binValue 2 1 0 rest
  let rest ← takeText " result=".toList rest
  let (v, rest) ← Bus.takeListing rest
  endText rest
  return ⟨BitVec.ofNat 1 st, v⟩

end Sys2Proof
end

