-- ==== Sys2Proof/Safety.lean ====
section
/-! DEFINITION. The terms claims are stated in: what holds of a state in every run, outcomes that go on, and the
requests a run accepts. -/

namespace Sys2Proof.Machine

/-- What every reachable state keeps: Q holds at most `MAX_INFLIGHT` requests (rule R24), is empty while reset is
asserted (rules R30, R130), and no wait runs while Q is empty. -/
def State.Inv (p : Params) (s : State) : Prop :=
  s.q.length ≤ p.maxInflight ∧ (s.inReset = true → s.q = []) ∧ (s.q = [] → s.rspWait = 0)

/-- The responses still owed (rule R43): those of the requests in Q, oldest first. -/
def State.owed (s : State) : List Response := s.q.map (response s.capSupported)

/-- The requests accepted by a run of edges that never asserts reset, from a state that is not in reset (rule R70). -/
def acceptedRequests (p : Params) : List PortIn → State → List Request
  | [], _ => []
  | inp :: rest, s =>
    (if s.accepts p inp then [inp.req] else []) ++
      match clockEdge p inp s with
      | .next t => acceptedRequests p rest t
      | .fault _ => []
      | .refused _ => []

/-- The host takes a response at every edge, and reset is never asserted. -/
def alwaysTakes (es : List PortIn) : Prop := ∀ e ∈ es, e.rst = false ∧ e.rspReady = true

/-- The host never takes a response, and reset is never asserted. -/
def neverTakes (es : List PortIn) : Prop := ∀ e ∈ es, e.rst = false ∧ e.rspReady = false

end Sys2Proof.Machine
end

