-- ==== Sys2Proof/Certificates/Slice0/Obligations.lean ====
section
/-! DEFINITION. The statements for the provers, from the numbered rules of the spec. -/

open Sys2Proof Sys2Proof.Machine

/-- For every instruction i, with every operand at every value: decode (encode i) = i, and the instruction read from the
771-bit word written for i is i. (30_encoding.md rules R60, R61 and R62, 00_scope.md rule R13.) -/
def Obligations.DecodeEncodeAgree : Prop :=
  (∀ i : Instr, decode (encode i) = i) ∧ ∀ i : Instr, decodeWord (encodeWord i) = i

/-- For every request r, encode (decode r) = r, and for every 771-bit word w, writing the instruction read from w gives w:
no two requests decode to one instruction and no word is left without one. (30_encoding.md rules R60, R62, R64 and
R65.) -/
def Obligations.EncodeDecodeAgree : Prop :=
  (∀ r : Request, encode (decode r) = r) ∧ ∀ w : BitVec 771, encodeWord (decodeWord w) = w

/-- For every 3-bit op: the width is 256 exactly when op[2] = 1 and 128 otherwise, the source is word exactly when op[1] =
1 and byte otherwise, the final combination is sat exactly when op[0] = 1 and wrap otherwise; and encodeOp undoes
decodeOp both ways. (R61.) -/
def Obligations.OpFieldIsThreeBits : Prop :=
  (∀ op : BitVec 3,
      (decodeOp op).width = (if op.getLsbD 2 then .w256 else .w128) ∧
      (decodeOp op).source = (if op.getLsbD 1 then .word else .byte) ∧
      (decodeOp op).final = (if op.getLsbD 0 then .sat else .wrap) ∧
      encodeOp (decodeOp op) = op) ∧
    ∀ o : Op, decodeOp (encodeOp o) = o

/-- For all operand buses, the eight op values 0b000 to 0b111 decode to the eight operations of the table of rule R62,
operands in their places, with the tuples and mnemonics of that table. (R62.) -/
def Obligations.OpcodeMap : Prop :=
  ∀ a l r : Bus,
    decode ⟨0b000#3, a, l, r⟩ = .mwaddB128 a l r ∧ decode ⟨0b001#3, a, l, r⟩ = .mwaddsB128 a l r ∧
    decode ⟨0b010#3, a, l, r⟩ = .mwaddW128 a l r ∧ decode ⟨0b011#3, a, l, r⟩ = .mwaddsW128 a l r ∧
    decode ⟨0b100#3, a, l, r⟩ = .mwaddB256 a l r ∧ decode ⟨0b101#3, a, l, r⟩ = .mwaddsB256 a l r ∧
    decode ⟨0b110#3, a, l, r⟩ = .mwaddW256 a l r ∧ decode ⟨0b111#3, a, l, r⟩ = .mwaddsW256 a l r ∧
    (Instr.mwaddB128 a l r).op = ⟨.w128, .byte, .wrap⟩ ∧ (Instr.mwaddsB128 a l r).op = ⟨.w128, .byte, .sat⟩ ∧
    (Instr.mwaddW128 a l r).op = ⟨.w128, .word, .wrap⟩ ∧ (Instr.mwaddsW128 a l r).op = ⟨.w128, .word, .sat⟩ ∧
    (Instr.mwaddB256 a l r).op = ⟨.w256, .byte, .wrap⟩ ∧ (Instr.mwaddsB256 a l r).op = ⟨.w256, .byte, .sat⟩ ∧
    (Instr.mwaddW256 a l r).op = ⟨.w256, .word, .wrap⟩ ∧ (Instr.mwaddsW256 a l r).op = ⟨.w256, .word, .sat⟩ ∧
    (Instr.mwaddB128 a l r).op.mnemonic = "mwadd.b.128" ∧ (Instr.mwaddsB128 a l r).op.mnemonic = "mwadds.b.128" ∧
    (Instr.mwaddW128 a l r).op.mnemonic = "mwadd.w.128" ∧ (Instr.mwaddsW128 a l r).op.mnemonic = "mwadds.w.128" ∧
    (Instr.mwaddB256 a l r).op.mnemonic = "mwadd.b.256" ∧ (Instr.mwaddsB256 a l r).op.mnemonic = "mwadds.b.256" ∧
    (Instr.mwaddW256 a l r).op.mnemonic = "mwadd.w.256" ∧ (Instr.mwaddsW256 a l r).op.mnemonic = "mwadds.w.256"

/-- For every request the bits [770:768], [767:512], [511:256] and [255:0] of its word are op, addend, left and right, and
reading the word back gives the request; for every response the bits [256] and [255:0] are status and result, and
reading the word back gives the response. (30_encoding.md rule R60.) -/
def Obligations.RequestAndResponseFields : Prop :=
  (∀ r : Request,
      r.toBits.extractLsb' 768 3 = r.op ∧ r.toBits.extractLsb' 512 256 = r.addend ∧
      r.toBits.extractLsb' 256 256 = r.left ∧ r.toBits.extractLsb' 0 256 = r.right ∧
      Request.ofBits r.toBits = r) ∧
    ∀ r : Response,
      r.toBits.extractLsb' 256 1 = r.status ∧ r.toBits.extractLsb' 0 256 = r.result ∧ Response.ofBits r.toBits = r

/-- For every request the listing of rule R69 is read back as that request with the upper halves of its buses zero when W
= 128 and unchanged when W = 256, and for every response its listing is read back as the response. (30_encoding.md
rule R69.) -/
def Obligations.ListingReadsBack : Prop :=
  (∀ r : Request, Request.parse r.listing = .ok r.listed) ∧
    (∀ r : Request, (decodeOp r.op).width = .w256 → r.listed = r) ∧
    (∀ r : Request, (decodeOp r.op).width = .w128 →
      r.listed = ⟨r.op, lowHalf r.addend, lowHalf r.left, lowHalf r.right⟩) ∧
    ∀ r : Response, Response.parse r.listing = .ok r

/-- Four requests written out bit by bit from the encoded vectors of 95_test_vectors.md section 2.6 (V42-4, V42-9
saturating, V42-14 and V42-17 saturating) decode, from their 771-bit words, to the instructions the vectors name.
(95_test_vectors.md section 2.6, 30_encoding.md rules R60 and R62.) -/
def Obligations.DecodeSanityWords : Prop :=
  decodeWord (0b000#3 ++ 0#256 ++ 0x80#256 ++ 0x80#256) = .mwaddB128 0#256 0x80#256 0x80#256 ∧
    decodeWord (0b011#3 ++ 0#256 ++ 0x80008000#256 ++ 0x80008000#256)
      = .mwaddsW128 0#256 0x80008000#256 0x80008000#256 ∧
    decodeWord (0b100#3 ++ 0x0000000700000006000000050000000400000003000000020000000100000000#256
        ++ 0x0202020202020202020202020202020202020202020202020202020202020202#256 ++ BitVec.allOnes 256)
      = .mwaddB256 0x0000000700000006000000050000000400000003000000020000000100000000#256
          0x0202020202020202020202020202020202020202020202020202020202020202#256 (BitVec.allOnes 256) ∧
    decodeWord (0b111#3 ++ 0x7fffffff00000000000000000000000000000000000000000000000000000000#256
        ++ 0x8000800000000000000000000000000000000000000000000000000000000000#256
        ++ 0x8000800000000000000000000000000000000000000000000000000000000000#256)
      = .mwaddsW256 0x7fffffff00000000000000000000000000000000000000000000000000000000#256
          0x8000800000000000000000000000000000000000000000000000000000000000#256
          0x8000800000000000000000000000000000000000000000000000000000000000#256

/-- Op 0b000 decodes to mwadd.b.128. With CAPS.SUPPORTED = 1, exec answers the next state that differs only in one more
delivered response, of status 0, whose lane i, for every i below 4, is wrap32 of the addend lane plus the exact sum of
the 4 products of the group, and whose bits [255:128] are 0. With CAPS.SUPPORTED = 0 the response has status 1 and the
result bus at zero, and nothing else changes. (R100.) -/
def Obligations.MwaddB128Result : Prop :=
  (∀ a l r : Bus, decode ⟨0b000#3, a, l, r⟩ = .mwaddB128 a l r) ∧
    ∀ (a l r : Bus) (s : State),
      (s.capSupported = true → ∃ res : Bus,
        exec (.mwaddB128 a l r) s = .next { s with delivered := s.delivered ++ [⟨0#1, res⟩] } ∧
        res.extractLsb' 128 128 = 0#128 ∧
        ∀ i < 4, lane32 res i = wrap32 (lane32 a i
          + (u8lane l (4 * i) * i8lane r (4 * i) + u8lane l (4 * i + 1) * i8lane r (4 * i + 1)
            + u8lane l (4 * i + 2) * i8lane r (4 * i + 2) + u8lane l (4 * i + 3) * i8lane r (4 * i + 3)))) ∧
      (s.capSupported = false →
        exec (.mwaddB128 a l r) s = .next { s with delivered := s.delivered ++ [⟨1#1, 0#256⟩] })

/-- Op 0b010 decodes to mwadd.w.128. With CAPS.SUPPORTED = 1, exec answers the next state that differs only in one more
delivered response, of status 0, whose lane i, for every i below 4, is wrap32 of the addend lane plus the exact sum of
the 2 products of the group, and whose bits [255:128] are 0. With CAPS.SUPPORTED = 0 the response has status 1 and the
result bus at zero, and nothing else changes. (R101.) -/
def Obligations.MwaddW128Result : Prop :=
  (∀ a l r : Bus, decode ⟨0b010#3, a, l, r⟩ = .mwaddW128 a l r) ∧
    ∀ (a l r : Bus) (s : State),
      (s.capSupported = true → ∃ res : Bus,
        exec (.mwaddW128 a l r) s = .next { s with delivered := s.delivered ++ [⟨0#1, res⟩] } ∧
        res.extractLsb' 128 128 = 0#128 ∧
        ∀ i < 4, lane32 res i = wrap32 (lane32 a i
          + (i16lane l (2 * i) * i16lane r (2 * i) + i16lane l (2 * i + 1) * i16lane r (2 * i + 1)))) ∧
      (s.capSupported = false →
        exec (.mwaddW128 a l r) s = .next { s with delivered := s.delivered ++ [⟨1#1, 0#256⟩] })

/-- Op 0b100 decodes to mwadd.b.256. With CAPS.SUPPORTED = 1, exec answers the next state that differs only in one more
delivered response, of status 0, whose lane i, for every i below 8, is wrap32 of the addend lane plus the exact sum of
the 4 products of the group. With CAPS.SUPPORTED = 0 the response has status 1 and the result bus at zero, and nothing
else changes. (R102.) -/
def Obligations.MwaddB256Result : Prop :=
  (∀ a l r : Bus, decode ⟨0b100#3, a, l, r⟩ = .mwaddB256 a l r) ∧
    ∀ (a l r : Bus) (s : State),
      (s.capSupported = true → ∃ res : Bus,
        exec (.mwaddB256 a l r) s = .next { s with delivered := s.delivered ++ [⟨0#1, res⟩] } ∧
        ∀ i < 8, lane32 res i = wrap32 (lane32 a i
          + (u8lane l (4 * i) * i8lane r (4 * i) + u8lane l (4 * i + 1) * i8lane r (4 * i + 1)
            + u8lane l (4 * i + 2) * i8lane r (4 * i + 2) + u8lane l (4 * i + 3) * i8lane r (4 * i + 3)))) ∧
      (s.capSupported = false →
        exec (.mwaddB256 a l r) s = .next { s with delivered := s.delivered ++ [⟨1#1, 0#256⟩] })

/-- Op 0b110 decodes to mwadd.w.256. With CAPS.SUPPORTED = 1, exec answers the next state that differs only in one more
delivered response, of status 0, whose lane i, for every i below 8, is wrap32 of the addend lane plus the exact sum of
the 2 products of the group. With CAPS.SUPPORTED = 0 the response has status 1 and the result bus at zero, and nothing
else changes. (R103.) -/
def Obligations.MwaddW256Result : Prop :=
  (∀ a l r : Bus, decode ⟨0b110#3, a, l, r⟩ = .mwaddW256 a l r) ∧
    ∀ (a l r : Bus) (s : State),
      (s.capSupported = true → ∃ res : Bus,
        exec (.mwaddW256 a l r) s = .next { s with delivered := s.delivered ++ [⟨0#1, res⟩] } ∧
        ∀ i < 8, lane32 res i = wrap32 (lane32 a i
          + (i16lane l (2 * i) * i16lane r (2 * i) + i16lane l (2 * i + 1) * i16lane r (2 * i + 1)))) ∧
      (s.capSupported = false →
        exec (.mwaddW256 a l r) s = .next { s with delivered := s.delivered ++ [⟨1#1, 0#256⟩] })

/-- Op 0b001 decodes to mwadds.b.128. With CAPS.SUPPORTED = 1, exec answers the next state that differs only in one more
delivered response, of status 0, whose lane i, for every i below 4, is sat32 of the addend lane plus the exact sum of
the 4 products of the group, and whose bits [255:128] are 0. With CAPS.SUPPORTED = 0 the response has status 1 and the
result bus at zero, and nothing else changes. (R104.) -/
def Obligations.MwaddsB128Result : Prop :=
  (∀ a l r : Bus, decode ⟨0b001#3, a, l, r⟩ = .mwaddsB128 a l r) ∧
    ∀ (a l r : Bus) (s : State),
      (s.capSupported = true → ∃ res : Bus,
        exec (.mwaddsB128 a l r) s = .next { s with delivered := s.delivered ++ [⟨0#1, res⟩] } ∧
        res.extractLsb' 128 128 = 0#128 ∧
        ∀ i < 4, lane32 res i = sat32 (lane32 a i
          + (u8lane l (4 * i) * i8lane r (4 * i) + u8lane l (4 * i + 1) * i8lane r (4 * i + 1)
            + u8lane l (4 * i + 2) * i8lane r (4 * i + 2) + u8lane l (4 * i + 3) * i8lane r (4 * i + 3)))) ∧
      (s.capSupported = false →
        exec (.mwaddsB128 a l r) s = .next { s with delivered := s.delivered ++ [⟨1#1, 0#256⟩] })

/-- Op 0b011 decodes to mwadds.w.128. With CAPS.SUPPORTED = 1, exec answers the next state that differs only in one more
delivered response, of status 0, whose lane i, for every i below 4, is sat32 of the addend lane plus the exact sum of
the 2 products of the group, and whose bits [255:128] are 0. With CAPS.SUPPORTED = 0 the response has status 1 and the
result bus at zero, and nothing else changes. (R105.) -/
def Obligations.MwaddsW128Result : Prop :=
  (∀ a l r : Bus, decode ⟨0b011#3, a, l, r⟩ = .mwaddsW128 a l r) ∧
    ∀ (a l r : Bus) (s : State),
      (s.capSupported = true → ∃ res : Bus,
        exec (.mwaddsW128 a l r) s = .next { s with delivered := s.delivered ++ [⟨0#1, res⟩] } ∧
        res.extractLsb' 128 128 = 0#128 ∧
        ∀ i < 4, lane32 res i = sat32 (lane32 a i
          + (i16lane l (2 * i) * i16lane r (2 * i) + i16lane l (2 * i + 1) * i16lane r (2 * i + 1)))) ∧
      (s.capSupported = false →
        exec (.mwaddsW128 a l r) s = .next { s with delivered := s.delivered ++ [⟨1#1, 0#256⟩] })

/-- Op 0b101 decodes to mwadds.b.256. With CAPS.SUPPORTED = 1, exec answers the next state that differs only in one more
delivered response, of status 0, whose lane i, for every i below 8, is sat32 of the addend lane plus the exact sum of
the 4 products of the group. With CAPS.SUPPORTED = 0 the response has status 1 and the result bus at zero, and nothing
else changes. (R106.) -/
def Obligations.MwaddsB256Result : Prop :=
  (∀ a l r : Bus, decode ⟨0b101#3, a, l, r⟩ = .mwaddsB256 a l r) ∧
    ∀ (a l r : Bus) (s : State),
      (s.capSupported = true → ∃ res : Bus,
        exec (.mwaddsB256 a l r) s = .next { s with delivered := s.delivered ++ [⟨0#1, res⟩] } ∧
        ∀ i < 8, lane32 res i = sat32 (lane32 a i
          + (u8lane l (4 * i) * i8lane r (4 * i) + u8lane l (4 * i + 1) * i8lane r (4 * i + 1)
            + u8lane l (4 * i + 2) * i8lane r (4 * i + 2) + u8lane l (4 * i + 3) * i8lane r (4 * i + 3)))) ∧
      (s.capSupported = false →
        exec (.mwaddsB256 a l r) s = .next { s with delivered := s.delivered ++ [⟨1#1, 0#256⟩] })

/-- Op 0b111 decodes to mwadds.w.256. With CAPS.SUPPORTED = 1, exec answers the next state that differs only in one more
delivered response, of status 0, whose lane i, for every i below 8, is sat32 of the addend lane plus the exact sum of
the 2 products of the group. With CAPS.SUPPORTED = 0 the response has status 1 and the result bus at zero, and nothing
else changes. (R107.) -/
def Obligations.MwaddsW256Result : Prop :=
  (∀ a l r : Bus, decode ⟨0b111#3, a, l, r⟩ = .mwaddsW256 a l r) ∧
    ∀ (a l r : Bus) (s : State),
      (s.capSupported = true → ∃ res : Bus,
        exec (.mwaddsW256 a l r) s = .next { s with delivered := s.delivered ++ [⟨0#1, res⟩] } ∧
        ∀ i < 8, lane32 res i = sat32 (lane32 a i
          + (i16lane l (2 * i) * i16lane r (2 * i) + i16lane l (2 * i + 1) * i16lane r (2 * i + 1)))) ∧
      (s.capSupported = false →
        exec (.mwaddsW256 a l r) s = .next { s with delivered := s.delivered ++ [⟨1#1, 0#256⟩] })

/-- For every integer x, wrap32 x lies in [-2147483648, 2147483647] and is congruent to x modulo 2^32, and any y with both
properties is wrap32 x; sat32 x is 2147483647 if x is above it, -2147483648 if x is below it, and x otherwise. (R10.) -/
def Obligations.WrapAndSaturateFunctions : Prop :=
  ∀ x : Int,
    (-2147483648 ≤ wrap32 x ∧ wrap32 x ≤ 2147483647 ∧ (wrap32 x - x) % 4294967296 = 0) ∧
    (∀ y : Int, -2147483648 ≤ y → y ≤ 2147483647 → (y - x) % 4294967296 = 0 → y = wrap32 x) ∧
    (2147483647 < x → sat32 x = 2147483647) ∧ (x < -2147483648 → sat32 x = -2147483648) ∧
    (-2147483648 ≤ x → x ≤ 2147483647 → sat32 x = x)

/-- For all integers a and b the helper is sat32 (a + b); saturating_add_i32(INT32_MAX, 1) = INT32_MAX;
saturating_add_i32(INT32_MIN, -1) = INT32_MIN; and saturating_add_i32(x, 0) = x for every i32 x. (41_datapath.md rule
R91.) -/
def Obligations.SaturatingHelperLaws : Prop :=
  (∀ a b : Int, saturatingAddI32 a b = sat32 (a + b)) ∧
    saturatingAddI32 2147483647 1 = 2147483647 ∧ saturatingAddI32 (-2147483648) (-1) = -2147483648 ∧
    ∀ x : Int, -2147483648 ≤ x → x ≤ 2147483647 → saturatingAddI32 x 0 = x

/-- For all buses and indices a product of an unsigned byte and a signed byte lies in [-32640, 32385], a product of two
signed words lies in [-1073709056, 1073741824], so every product fits in a signed 32-bit value; and the four ends are
reached. (41_datapath.md rules R86 and R87.) -/
def Obligations.ProductRanges : Prop :=
  (∀ (l r : Bus) (j : Nat), -32640 ≤ product (u8lane l) (i8lane r) j ∧ product (u8lane l) (i8lane r) j ≤ 32385) ∧
    (∀ (l r : Bus) (j : Nat),
      -1073709056 ≤ product (i16lane l) (i16lane r) j ∧ product (i16lane l) (i16lane r) j ≤ 1073741824) ∧
    (∃ l r : Bus, product (u8lane l) (i8lane r) 0 = -32640) ∧ (∃ l r : Bus, product (u8lane l) (i8lane r) 0 = 32385) ∧
    (∃ l r : Bus, product (i16lane l) (i16lane r) 0 = -1073709056) ∧
    ∃ l r : Bus, product (i16lane l) (i16lane r) 0 = 1073741824

/-- For all buses and lanes the byte-lane group sum lies in [-130560, 129540] and the word-lane group sum lies in
[-2147418112, 2147483648]; the word-lane sum is 2^31 exactly when both pairs of the group are (-32768, -32768); and
the four ends are reached. (41_datapath.md rules R85 and R88, 90_conflicts.md C5.) -/
def Obligations.GroupSumRanges : Prop :=
  (∀ (l r : Bus) (i : Nat),
      -130560 ≤ groupSum 4 (u8lane l) (i8lane r) i ∧ groupSum 4 (u8lane l) (i8lane r) i ≤ 129540) ∧
    (∀ (l r : Bus) (i : Nat),
      -2147418112 ≤ groupSum 2 (i16lane l) (i16lane r) i ∧ groupSum 2 (i16lane l) (i16lane r) i ≤ 2147483648) ∧
    (∀ (l r : Bus) (i : Nat), groupSum 2 (i16lane l) (i16lane r) i = 2147483648 ↔
      i16lane l (2 * i) = -32768 ∧ i16lane r (2 * i) = -32768 ∧
      i16lane l (2 * i + 1) = -32768 ∧ i16lane r (2 * i + 1) = -32768) ∧
    (∃ l r : Bus, groupSum 4 (u8lane l) (i8lane r) 0 = -130560) ∧
    (∃ l r : Bus, groupSum 4 (u8lane l) (i8lane r) 0 = 129540) ∧
    (∃ l r : Bus, groupSum 2 (i16lane l) (i16lane r) 0 = -2147418112) ∧
    ∃ l r : Bus, groupSum 2 (i16lane l) (i16lane r) 0 = 2147483648

/-- For every wrapping operation, all buses and every lane i below N, lane i of the result is wrap32 of the addend lane
plus the exact group sum, and also wrap32 of the addend lane plus the group sum wrapped to 32 bits. (41_datapath.md
rule R89.) -/
def Obligations.WrappingNeedsNoExactSum : Prop :=
  ∀ (o : Op) (a l r : Bus) (i : Nat), o.final = .wrap → i < o.width.lanes →
    lane32 (wma o a l r) i
      = wrap32 (lane32 a i + groupSum o.source.group (leftLane o.source l) (rightLane o.source r) i) ∧
    lane32 (wma o a l r) i
      = wrap32 (lane32 a i + wrap32 (groupSum o.source.group (leftLane o.source l) (rightLane o.source r) i))

/-- For every saturating operation, all buses and every lane i below N, lane i of the result is sat32 of the exact total
of the addend lane and the group sum, and that total lies in [-4294901760, 4294967295]; and there are buses for which
wrapping the group sum to 32 bits first gives another lane. (41_datapath.md rule R90, 90_conflicts.md C5.) -/
def Obligations.SaturatingNeedsTheExactSum : Prop :=
  (∀ (o : Op) (a l r : Bus) (i : Nat), o.final = .sat → i < o.width.lanes →
      lane32 (wma o a l r) i
        = sat32 (lane32 a i + groupSum o.source.group (leftLane o.source l) (rightLane o.source r) i) ∧
      -4294901760 ≤ lane32 a i + groupSum o.source.group (leftLane o.source l) (rightLane o.source r) i ∧
      lane32 a i + groupSum o.source.group (leftLane o.source l) (rightLane o.source r) i ≤ 4294967295) ∧
    ∃ a l r : Bus, lane32 (wma ⟨.w128, .word, .sat⟩ a l r) 0
      ≠ sat32 (lane32 a 0 + wrap32 (groupSum 2 (i16lane l) (i16lane r) 0))

/-- For every operation (W, S, T) and all buses, lane i of the result, for every i below N, is sat32 (T = sat) or wrap32
(T = wrap) of the addend lane plus the exact sum over k below G of the products at index G*i+k, bytes read unsigned on
the left and signed on the right and words read signed; and the result bits from 32N up are 0. (R92.) -/
def Obligations.WholeDatapath : Prop :=
  ∀ (o : Op) (a l r : Bus),
    (∀ i < o.width.lanes, lane32 (wma o a l r) i =
      (match o.final with
        | .sat => sat32
        | .wrap => wrap32) (lane32 a i + ((List.range (if o.source = Source.byte then 4 else 2)).map fun k =>
          match o.source with
          | .byte => u8lane l (4 * i + k) * i8lane r (4 * i + k)
          | .word => i16lane l (2 * i + k) * i16lane r (2 * i + k)).sum)) ∧
    (wma o a l r).extractLsb' (32 * o.width.lanes) (256 - 32 * o.width.lanes) = 0

/-- For every operation and lane j below N, two triples of operand buses that agree on bits [32j+31:32j] give the same
bits [32j+31:32j] of the result, whatever the other bits of the buses. (R93.) -/
def Obligations.LaneIndependence : Prop :=
  ∀ (o : Op) (a l r a' l' r' : Bus) (j : Nat), j < o.width.lanes →
    a.extractLsb' (32 * j) 32 = a'.extractLsb' (32 * j) 32 →
    l.extractLsb' (32 * j) 32 = l'.extractLsb' (32 * j) 32 →
    r.extractLsb' (32 * j) 32 = r'.extractLsb' (32 * j) 32 →
    (wma o a l r).extractLsb' (32 * j) 32 = (wma o a' l' r').extractLsb' (32 * j) 32

/-- For every op with W = 128, whatever CAPS.SUPPORTED is: two requests whose three buses agree on bits [127:0] get the
same response, and bits [255:128] of the result bus are 0. (R29.) -/
def Obligations.UpperHalfIgnoredAt128 : Prop :=
  ∀ (c : Bool) (op : BitVec 3) (a l r a' l' r' : Bus), (decodeOp op).width = .w128 →
    a.extractLsb' 0 128 = a'.extractLsb' 0 128 → l.extractLsb' 0 128 = l'.extractLsb' 0 128 →
    r.extractLsb' 0 128 = r'.extractLsb' 0 128 →
    response c ⟨op, a, l, r⟩ = response c ⟨op, a', l', r'⟩ ∧
    (response c ⟨op, a, l, r⟩).result.extractLsb' 128 128 = 0#128

/-- For each (S, T) and all buses, the result of the 256-bit operation is the concatenation of the low 128 bits of the
128-bit operation on the upper halves (placed in bits [127:0]) and the low 128 bits of the 128-bit operation on the
lower halves. (R94.) -/
def Obligations.WidthIndependence : Prop :=
  ∀ (src : Source) (t : Final) (a l r : Bus),
    wma ⟨.w256, src, t⟩ a l r
      = (wma ⟨.w128, src, t⟩ (highHalf a) (highHalf l) (highHalf r)).extractLsb' 0 128
        ++ (wma ⟨.w128, src, t⟩ (lowHalf a) (lowHalf l) (lowHalf r)).extractLsb' 0 128

/-- For all lane values, for every order of the addend and the G products: the final combination of their sum is the lane
result, and for the wrapping combination adding them one by one in that order, wrapping after each addition, also is;
and there are an addend and products for which saturating the sum of the products before adding the addend gives
another value than the saturating combination. (41_datapath.md rules R89, R90 and R95.) -/
def Obligations.OrderIndependence : Prop :=
  (∀ (t : Final) (g : Nat) (a l r : Nat → Int) (i : Nat) (terms : List Int),
      terms.Perm (a i :: (List.range g).map fun k => product l r (g * i + k)) →
      combine t terms.sum = laneResult t g a l r i ∧
      (t = .wrap → terms.foldl (fun acc x => wrap32 (acc + x)) 0 = laneResult t g a l r i)) ∧
    ∃ a l r : Bus, laneResult .sat 2 (lane32 a) (i16lane l) (i16lane r) 0
      ≠ sat32 (lane32 a 0 + sat32 (groupSum 2 (i16lane l) (i16lane r) 0))

/-- For every width and source and all buses: if in every lane below N the exact total lies in [INT32_MIN, INT32_MAX], the
saturating result is the wrapping result; and if left or right is all zeros, every lane below N of the result of any
operation is the addend lane. (41_datapath.md rules R89, R90 and R92, 43_multiply_widening_add_saturate.md rule R104,
corner cases, 42_multiply_widening_add.md rule R100, corner cases.) -/
def Obligations.SaturatingIsWrappingInRange : Prop :=
  (∀ (w : Width) (src : Source) (a l r : Bus),
      (∀ i < w.lanes, -2147483648 ≤ lane32 a i + groupSum src.group (leftLane src l) (rightLane src r) i ∧
        lane32 a i + groupSum src.group (leftLane src l) (rightLane src r) i ≤ 2147483647) →
      wma ⟨w, src, .sat⟩ a l r = wma ⟨w, src, .wrap⟩ a l r) ∧
    ∀ (o : Op) (a l r : Bus), (l = 0#256 ∨ r = 0#256) →
      ∀ i < o.width.lanes, lane32 (wma o a l r) i = lane32 a i

/-- For every instruction and every state: with CAPS.SUPPORTED = 0 the next state differs only in one more delivered
response, status 1 with the result bus zero, whatever the instruction and its operands; with CAPS.SUPPORTED = 1 it
differs only in one more delivered response, status 0 with the result of WMA of the decoded op and the request fields.
(R111.) -/
def Obligations.ExecuteGatedRequest : Prop :=
  ∀ (i : Instr) (s : State),
    (s.capSupported = false →
      exec i s = .next { s with delivered := s.delivered ++ [⟨1#1, 0#256⟩] }) ∧
    (s.capSupported = true →
      exec i s = .next { s with delivered := s.delivered ++
        [⟨0#1, wma (decodeOp (encode i).op) (encode i).addend (encode i).left (encode i).right⟩] })

/-- For every instruction and every state, with CAPS.SUPPORTED at either value, the execution with CAPS.X64 = 0 and the
one with CAPS.X64 = 1 deliver the same response; and each output bit is its own CAPS bit. (40_capability_gate.md rule
R81, 90_conflicts.md C7, 10_state.md rule R23.) -/
def Obligations.X64GatesNothing : Prop :=
  (∀ (i : Instr) (s : State) (c : Bool), ∃ rsp : Response, ∀ x : Bool,
      exec i { s with caps := capsWord c x } =
        .next { s with caps := capsWord c x, delivered := s.delivered ++ [rsp] }) ∧
    ∀ (p : Params) (s : State) (c x : Bool),
      (State.outputs p { s with caps := capsWord c x }).capSupported = c ∧
      (State.outputs p { s with caps := capsWord c x }).capX64 = x

/-- For all model arguments and every run of clock edges with rst = 0 from a state that is not in reset: CAPS and both
capability outputs after the run are those before it, and reset is still not asserted. (40_capability_gate.md rules
R80, R81 and R83, 70_reset_and_hazards.md rule R136, 10_state.md rule R23.) -/
def Obligations.CapsConstantBetweenResets : Prop :=
  ∀ (p : Params) (es : List PortIn) (s t : State), s.inReset = false → (∀ e ∈ es, e.rst = false) →
    runEdges p es s = .next t →
    t.caps = s.caps ∧ t.inReset = false ∧ (t.outputs p).capSupported = (s.outputs p).capSupported ∧
    (t.outputs p).capX64 = (s.outputs p).capX64

/-- For all model arguments and every run of edges with rst = 0 from a state that is not in reset with CAPS.SUPPORTED = 0:
the requests in Q at the start followed by those accepted in the run, in that order, are answered from the first on,
each response of the run being status 1 with the result bus zero and the k-th response being that of the k-th request;
the requests not yet answered are exactly those in Q at the end, and the response owed to each of them is the same
fault. (60_exceptions.md rules R111 and R113, 40_capability_gate.md rule R82, 20_memory.md rules R43 and R45.) -/
def Obligations.NoRetryHelps : Prop :=
  ∀ (p : Params) (es : List PortIn) (s t : State), s.inReset = false → s.capSupported = false →
    (∀ e ∈ es, e.rst = false) → runEdges p es s = .next t →
    ∃ out : List Response, t.delivered = s.delivered ++ out ∧
      out = ((s.q ++ acceptedRequests p es s).take out.length).map (fun _ => ⟨1#1, 0#256⟩) ∧
      t.q = (s.q ++ acceptedRequests p es s).drop out.length ∧ t.owed = t.q.map (fun _ => ⟨1#1, 0#256⟩)

/-- State.reset is not in reset; cap_supported and cap_x64 are the straps CAP_SUPPORTED and CAP_X64; Q is empty; req_ready
= 1; rsp_valid = 0. That the state right after reset is the released one is the model's reading
(notes/assumptions/6.md). (10_state.md rule R30, released column, 70_reset_and_hazards.md rule R131.) -/
def Obligations.ResetStateIsReleased : Prop :=
  State.reset.inReset = false ∧ State.reset.q = [] ∧
    (State.reset.outputs Config.chip).capSupported = Config.capSupported ∧
    (State.reset.outputs Config.chip).capX64 = Config.capX64 ∧
    (State.reset.outputs Config.chip).reqReady = true ∧ (State.reset.outputs Config.chip).rspValid = false

/-- For all model arguments, every state and every edge with rst = 1: req_ready = 0 and rsp_valid = 0 at the edge,
whatever the host offers, and the state the edge acts on is in reset with Q empty; and if the host keeps an unaccepted
request stable, the edge answers a next state in reset with Q empty and no response delivered. That an edge with rst =
1 at which the host changes or withdraws an unaccepted request is refused is the model's reading of R134
(notes/assumptions/10.md), so only the first clauses speak of it. (70_reset_and_hazards.md rules R130 and R134,
10_state.md rule R30.) -/
def Obligations.ResetAssertion : Prop :=
  ∀ (p : Params) (inp : PortIn) (s : State), inp.rst = true →
    (outputsAt p inp s).reqReady = false ∧ (outputsAt p inp s).rspValid = false ∧
    (s.settle p inp).q = [] ∧ (s.settle p inp).inReset = true ∧
    (s.stable inp = true →
      ∃ t : State, clockEdge p inp s = .next t ∧ t.q = [] ∧ t.inReset = true ∧ t.delivered = s.delivered ∧
        (t.outputs p).reqReady = false ∧ (t.outputs p).rspValid = false)

/-- For all model arguments: from a state in reset with Q empty, at an edge with rst = 0, whatever the host offers,
cap_supported and cap_x64 are the straps, req_ready = 1 and rsp_valid = 0; and if the host keeps an unaccepted request
stable, the edge answers a next state out of reset with CAPS at the straps and no response delivered, and, if no
request is offered at that edge, with Q empty, req_ready = 1 and rsp_valid = 0; and from a state not in reset,
whatever the strap levels at an edge with rst = 0, CAPS stays, in the outputs at the edge and after it. That the first
edge with rst = 0 is the release and already shows its levels is the model's reading (notes/assumptions/9.md), and so
is the duty of R134 across a reset (notes/assumptions/10.md). (70_reset_and_hazards.md rules R131 and R134,
10_state.md rules R23 and R30.) -/
def Obligations.ResetRelease : Prop :=
  (∀ (p : Params) (inp : PortIn) (s : State), s.inReset = true → s.q = [] → inp.rst = false →
      (outputsAt p inp s).capSupported = inp.strapCapSupported ∧ (outputsAt p inp s).capX64 = inp.strapCapX64 ∧
      (outputsAt p inp s).reqReady = true ∧ (outputsAt p inp s).rspValid = false ∧
      (s.stable inp = true →
        ∃ t : State, clockEdge p inp s = .next t ∧ t.inReset = false ∧
          t.caps = capsWord inp.strapCapSupported inp.strapCapX64 ∧ t.delivered = s.delivered ∧
          (inp.reqValid = false → t.q = [] ∧ (t.outputs p).reqReady = true ∧ (t.outputs p).rspValid = false))) ∧
    ∀ (p : Params) (inp : PortIn) (s : State), s.inReset = false → inp.rst = false →
      (outputsAt p inp s).capSupported = s.capSupported ∧ (outputsAt p inp s).capX64 = s.capX64 ∧
      ∀ t : State, clockEdge p inp s = .next t → t.caps = s.caps

/-- For every state that has the invariant (Q holds at most MAX_INFLIGHT requests, is empty while reset is asserted, and
no wait runs while Q is empty), if step answers a next state, that state has it; the same of one clock edge for all
model arguments. The last part of the invariant is about a field of the model (notes/assumptions/3.md). (10_state.md
rules R24 and R30, 70_reset_and_hazards.md rule R130.) -/
def Obligations.StepKeepsInvariant : Prop :=
  (∀ s t : State, s.Inv Config.chip → step s = .next t → t.Inv Config.chip) ∧
    ∀ (p : Params) (inp : PortIn) (s t : State), s.Inv p → clockEdge p inp s = .next t → t.Inv p

/-- State.reset has the invariant that every step keeps. Its last part, that no wait runs while Q is empty, holds because
the wait, a field of the model (notes/assumptions/3.md), starts at 0, which is the model's choice
(notes/assumptions/6.md). (10_state.md rules R24 and R30.) -/
def Obligations.ResetStateHasInvariant : Prop :=
  State.reset.Inv Config.chip

/-- For every state whose next edge has rst = 0 and rsp_ready = 1, that is not in reset, whose Q is r followed by rest,
whose head is offered and whose unaccepted request the host keeps stable: exec of the decoded r answers a next state
t, and step answers t with the head removed from Q, the offered request appended if Q had room, the wait drawn for the
new head (0 if there is none), the request left unaccepted recorded, and the free-value index advanced. That an
instruction is executed at the step that takes its response is the model's choice (notes/assumptions/11.md), and so is
the list of levels the step reads (1.md); that the room in Q is tested before the head leaves is its reading (15.md);
the wait, the record and the index are its fields (3.md, 10.md, 21.md). (60_exceptions.md rule R111, 30_encoding.md
rule R70, 10_state.md rule R24.) -/
def Obligations.StepRunsTheHeadOfQueue : Prop :=
  ∀ (s : State) (e : PortIn) (es : List PortIn) (r : Request) (rest : List Request),
    s.inputs = e :: es → e.rst = false → e.rspReady = true → s.inReset = false → s.q = r :: rest →
    s.rspWait = 0 → s.stable e = true →
    ∃ t : State, exec (decode r) { s with inputs := es } = .next t ∧
      step s = .next { t with
        q := rest ++ (if e.reqValid && decide (rest.length + 1 < Config.chip.maxInflight) then [e.req] else [])
        rspWait := if rest = [] ∧ ¬(e.reqValid = true ∧ rest.length + 1 < Config.chip.maxInflight) then 0
          else Config.rspLatency s.draws
        held := if e.reqValid && !decide (rest.length + 1 < Config.chip.maxInflight) then some e.req else none
        draws := s.draws + 1 }

/-- For every state and every nbits and w there is an instruction that decodeTableWord reads from them, and the step from
s.withFetchWord nbits w answers a next state whose delivered responses are those exec of that instruction leaves, with
the head of Q removed. Where a table word is placed is the model's choice (notes/assumptions/2.md), and so is reading
an instruction from every nbits and w by the low three bits of w, the operands all zero (notes/assumptions/14.md).
(30_encoding.md rules R62 and R70, 10_state.md rule R24.) -/
def Obligations.FetchWordRunsNext : Prop :=
  ∀ (s : State) (nbits w : Nat), ∃ (i : Instr) (t u : State),
    decodeTableWord nbits w = some i ∧ exec i s = .next t ∧ step (s.withFetchWord nbits w) = .next u ∧
    u.delivered = t.delivered ∧ u.q = s.q.tail ∧ u.caps = s.caps ∧ u.inputs = s.inputs

/-- For all model arguments, every state and every edge at which the host keeps an unaccepted request stable, with s0 the
state after the level of rst: req_ready = 1 exactly when rst = 0 and Q has fewer than MAX_INFLIGHT requests; rsp_valid
= 1 only when rst = 0 and Q has a head, and then the response offered is F of CAPS.SUPPORTED and that head; the edge
answers a next state in which Q has lost its head exactly when rsp_valid = rsp_ready = 1 (that response being
delivered) and otherwise kept it, and has gained the offered request at its end exactly when req_valid = req_ready =
1, both possible at one edge. (30_encoding.md rule R70, 20_memory.md rule R43.) -/
def Obligations.EdgeTransfers : Prop :=
  ∀ (p : Params) (inp : PortIn) (s : State), s.stable inp = true →
    ((outputsAt p inp s).reqReady = true ↔ inp.rst = false ∧ (s.settle p inp).q.length < p.maxInflight) ∧
    ((outputsAt p inp s).rspValid = true → inp.rst = false ∧ ∃ r rest,
      (s.settle p inp).q = r :: rest ∧ (outputsAt p inp s).rsp = response (s.settle p inp).capSupported r) ∧
    ∃ t : State, clockEdge p inp s = .next t ∧
      t.q = (if (outputsAt p inp s).rspValid && inp.rspReady then (s.settle p inp).q.tail else (s.settle p inp).q)
        ++ (if inp.reqValid && (outputsAt p inp s).reqReady then [inp.req] else []) ∧
      t.delivered = s.delivered
        ++ (if (outputsAt p inp s).rspValid && inp.rspReady then [(outputsAt p inp s).rsp] else [])

/-- For all model arguments: if at an edge rsp_valid = 1 and rsp_ready = 0 and the edge answers a next state, then at any
next edge with rst = 0 rsp_valid = 1 with the same status and result. That rsp_valid itself stays at 1 is the model's
reading of the rule (notes/assumptions/3.md). (30_encoding.md rule R70.) -/
def Obligations.OfferedResponseStable : Prop :=
  ∀ (p : Params) (e1 e2 : PortIn) (s t : State),
    (outputsAt p e1 s).rspValid = true → e1.rspReady = false → clockEdge p e1 s = .next t → e2.rst = false →
    (outputsAt p e2 t).rspValid = true ∧ (outputsAt p e2 t).rsp = (outputsAt p e1 s).rsp

/-- For all model arguments: after an edge with req_valid = 1 and req_ready = 0 the next edge is refused as unstable
exactly when it has req_valid = 0 or other request fields, and answers a next state otherwise; after an edge with
req_valid = 0 or req_ready = 1 every next edge answers a next state. That the duty also runs through edges with rst =
1 is the model's reading of the rule (notes/assumptions/10.md). (70_reset_and_hazards.md rule R134,
93_implementation_defined.md U7.) -/
def Obligations.RequestStabilityDuty : Prop :=
  ∀ (p : Params) (e1 e2 : PortIn) (s t : State), clockEdge p e1 s = .next t →
    (e1.reqValid = true → (outputsAt p e1 s).reqReady = false →
      (clockEdge p e2 t = .refused .unstableRequest ↔ ¬(e2.reqValid = true ∧ e2.req = e1.req)) ∧
      (e2.reqValid = true → e2.req = e1.req → ∃ u : State, clockEdge p e2 t = .next u)) ∧
    (e1.reqValid = false ∨ (outputsAt p e1 s).reqReady = true → ∃ u : State, clockEdge p e2 t = .next u)

/-- For every state, step answers a next state, or it is refused as unstableRequest and then the host, with a request held
unaccepted, did not keep it at the next edge. (70_reset_and_hazards.md rules R134 and R138, 41_datapath.md rule R96.) -/
def Obligations.EngineNeverStopsItself : Prop :=
  ∀ s : State, (∃ t : State, step s = .next t) ∨
    (step s = .refused .unstableRequest ∧ ∃ (e : PortIn) (es : List PortIn) (r : Request),
      s.inputs = e :: es ∧ s.held = some r ∧ ¬(e.reqValid = true ∧ e.req = r))

/-- For all model arguments and every run of edges with rst = 0 from a state not in reset: the responses delivered by
then, followed by those still owed to the requests in Q, are those delivered and owed at the start followed by the
response F of each request accepted in the run, in order of acceptance. The record of delivered responses is the
model's field (notes/assumptions/13.md). (20_memory.md rules R43 and R45, 10_state.md rule R24.) -/
def Obligations.ResponsesInRequestOrder : Prop :=
  ∀ (p : Params) (es : List PortIn) (s t : State), s.inReset = false → (∀ e ∈ es, e.rst = false) →
    runEdges p es s = .next t →
    t.delivered ++ t.owed
      = s.delivered ++ s.owed ++ (acceptedRequests p es s).map (response s.capSupported)

/-- For all model arguments: if a clock edge answers a next state, these abstract steps of rules R70, R130 and R131, in
this order and each enabled in its turn, lead from the spec's engine state before the edge to the one after it and
deliver exactly the responses the edge delivers: Reset if rst = 1, with the value CAPS then shows; the release with
the edge's straps if rst = 0 and reset was asserted; Deliver if rsp_valid = 1 and rsp_ready = 1 at the edge; Accept of
the edge's request if req_valid = 1 and req_ready = 1 at the edge; and nothing else. That the first edge with rst = 0
is the release, takes that edge's straps and may be followed by Accept at the same edge is the model's reading
(notes/assumptions/9.md). (30_encoding.md rule R70, 10_state.md rule R31, 70_reset_and_hazards.md rules R130 and
R131.) -/
def Obligations.EdgesRefineAbstractSteps : Prop :=
  ∀ (p : Params) (inp : PortIn) (s t : State), clockEdge p inp s = .next t →
    ∃ out : List Response, t.delivered = s.delivered ++ out ∧
      runMoves p.maxInflight
        ((if inp.rst then [Move.reset t.caps]
          else if s.inReset then [Move.release (capsWord inp.strapCapSupported inp.strapCapX64)] else [])
        ++ (if (outputsAt p inp s).rspValid && inp.rspReady then [Move.deliver] else [])
        ++ (if inp.reqValid && (outputsAt p inp s).reqReady then [Move.accept inp.req] else []))
        s.engine = some (t.engine, out)

/-- For all model arguments and every state not in reset and with no request held: an enabled Accept of a request is the
effect of the edge that offers it and takes nothing; an enabled Deliver is, once the head's wait is over, the effect
of the edge that offers nothing and takes the response. The wait is the model's field (notes/assumptions/3.md).
(30_encoding.md rule R70, 70_reset_and_hazards.md rule R137.) -/
def Obligations.AbstractStepsAreEdges : Prop :=
  ∀ (p : Params) (s : State), s.inReset = false → s.held = none →
    (∀ (r : Request) (e : EngineState) (out : List Response),
      (Move.accept r).apply p.maxInflight s.engine = some (e, out) →
      ∃ t : State, clockEdge p { offerEdge p r with rspReady := false } s = .next t ∧ t.engine = e ∧
        t.delivered = s.delivered ++ out) ∧
    ∀ (e : EngineState) (out : List Response), s.rspWait = 0 →
      Move.deliver.apply p.maxInflight s.engine = some (e, out) →
      ∃ t : State, clockEdge p (takeEdge p) s = .next t ∧ t.engine = e ∧ t.delivered = s.delivered ++ out

/-- For all model arguments: from a state not in reset whose Q has the head r, a run of exactly wait + 1 edges at which
rst = 0 and rsp_ready = 1 delivers the response of r and nothing else. The wait is the model's field for the open
RSP_LATENCY (notes/assumptions/3.md). (70_reset_and_hazards.md rule R137, 92_eei_decisions.md D16.) -/
def Obligations.HeadAnsweredAfterItsWait : Prop :=
  ∀ (p : Params) (es : List PortIn) (s t : State) (r : Request) (rest : List Request),
    s.inReset = false → s.q = r :: rest → alwaysTakes es → es.length = s.rspWait + 1 →
    runEdges p es s = .next t → t.delivered = s.delivered ++ [response s.capSupported r]

/-- For all model arguments and every state not in reset there is a number of edges after which, whatever else the host
does as long as rst = 0 and rsp_ready = 1 at each, the responses owed to the requests in Q have all been delivered, in
order, and no other response has. The finite wait behind it is the model's form of the open RSP_LATENCY
(notes/assumptions/3.md). (70_reset_and_hazards.md rule R137, 92_eei_decisions.md D16.) -/
def Obligations.EveryRequestAnswered : Prop :=
  ∀ (p : Params) (s : State), s.inReset = false →
    ∃ n : Nat, ∀ (es : List PortIn) (t : State), es.length = n → alwaysTakes es →
      runEdges p es s = .next t → t.delivered = s.delivered ++ s.owed

/-- For all model arguments and every run of edges with rst = 0 and rsp_ready = 0 from a state not in reset: no response
is delivered, Q keeps its requests in place, and if Q holds MAX_INFLIGHT requests at the start it is the same at the
end and req_ready is 0. (70_reset_and_hazards.md rule R138, 30_encoding.md rule R70.) -/
def Obligations.Backpressure : Prop :=
  ∀ (p : Params) (es : List PortIn) (s t : State), s.inReset = false → neverTakes es →
    runEdges p es s = .next t →
    t.delivered = s.delivered ∧ (∃ more : List Request, t.q = s.q ++ more) ∧
    (p.maxInflight ≤ s.q.length → t.q = s.q ∧ (t.outputs p).reqReady = false)

/-- For all model arguments, every state and every edge at which the host keeps an unaccepted request stable: if req_valid
= 1 and req_ready = 1, the edge answers a next state whose Q ends with that request and in which no request is left
unaccepted. (70_reset_and_hazards.md rule R137, 30_encoding.md rule R70.) -/
def Obligations.OfferedWhileReadyIsAccepted : Prop :=
  ∀ (p : Params) (inp : PortIn) (s : State), s.stable inp = true → inp.reqValid = true →
    (outputsAt p inp s).reqReady = true →
    ∃ (t : State) (ahead : List Request), clockEdge p inp s = .next t ∧ t.q = ahead ++ [inp.req] ∧ t.held = none

/-- For every call and either value of the gate: the three checks hold exactly when addend has N elements and left and
right have G*N; when every element lies in its type's range; and when addend is i32 and left and right are u8 and i8
(byte) or both i16 (word). A call that breaks the counts is refused as laneCount, one that keeps them and breaks the
ranges as elementRange, one that keeps both and breaks the types as elementType, at either gate value; a call that
breaks none is the fault UnsupportedOperation, with no value, when the gate is false, and answers its result when the
gate is true; and the call that a request on the bus stands for breaks none, whatever its bits. The order of the
checks, and that they come before the gate, is the model's choice (notes/assumptions/16.md). (60_exceptions.md rules
R111 and R114, 10_state.md rules R25 and R26, 00_scope.md rules R5 and R11.) -/
def Obligations.ValueCallOutcomes : Prop :=
  (∀ c : Call,
      (c.countsOk = true ↔ c.addend.elems.length = c.op.width.lanes ∧
        c.left.elems.length = c.op.source.group * c.op.width.lanes ∧
        c.right.elems.length = c.op.source.group * c.op.width.lanes) ∧
      (c.rangesOk = true ↔ ∀ v ∈ [c.addend, c.left, c.right], ∀ x ∈ v.elems,
        (v.elem = .u8 → 0 ≤ x ∧ x ≤ 255) ∧ (v.elem = .i8 → -128 ≤ x ∧ x ≤ 127) ∧
        (v.elem = .i16 → -32768 ≤ x ∧ x ≤ 32767) ∧ (v.elem = .i32 → -2147483648 ≤ x ∧ x ≤ 2147483647)) ∧
      (c.typesOk = true ↔ c.addend.elem = .i32 ∧
        (c.op.source = .byte → c.left.elem = .u8 ∧ c.right.elem = .i8) ∧
        (c.op.source = .word → c.left.elem = .i16 ∧ c.right.elem = .i16)) ∧
      (c.wf = true ↔ c.countsOk = true ∧ c.rangesOk = true ∧ c.typesOk = true)) ∧
    (∀ (g : Bool) (c : Call),
      (c.countsOk = false → Call.run g c = .refused .laneCount) ∧
      (c.countsOk = true → c.rangesOk = false → Call.run g c = .refused .elementRange) ∧
      (c.countsOk = true → c.rangesOk = true → c.typesOk = false → Call.run g c = .refused .elementType) ∧
      (c.wf = true → Call.run false c = .fault .unsupportedOperation ∧ Call.run true c = .next (Call.result c))) ∧
    ∀ r : Request, (requestCall r).wf = true

/-- For every well-formed call, with the gate true: the response to its packed request has status 0 and its result bus,
read as i32 lanes, is the value-level result, whose elements are N values in the i32 range; with the gate false the
response has status 1. (41_datapath.md rule R92, 10_state.md rules R25, R26 and R28, 60_exceptions.md rules R111 and
R114.) -/
def Obligations.BusMeetsValueLevel : Prop :=
  ∀ c : Call, c.wf = true →
    (response true (Call.request c)).status = 0#1 ∧
    resultVec c.op (response true (Call.request c)).result = Call.result c ∧
    (Call.result c).elems.length = c.op.width.lanes ∧ (Call.result c).inRange = true ∧
    (response false (Call.request c)).status = 1#1

/-- For every request, of any 771 bits: with the gate true the value-level call it stands for answers the lanes of the
response's result bus, and with the gate false that call is the fault UnsupportedOperation and the response has status
1. (30_encoding.md rule R63, 41_datapath.md rules R92 and R96, 60_exceptions.md rules R111 and R114.) -/
def Obligations.BusRequestMeetsItsCall : Prop :=
  ∀ r : Request,
    Call.run true (requestCall r) = .next (resultVec (decodeOp r.op) (response true r).result) ∧
    (response true r).status = 0#1 ∧
    Call.run false (requestCall r) = .fault .unsupportedOperation ∧ (response false r).status = 1#1

/-- For every program and every running host between lines: a literal whose count and ranges match its type goes on with
the name bound to it, every other name keeping what it was bound to, and any other literal is refused; br.nocap goes
to the first line that declares its label when cap_supported = 0 and on otherwise; br always goes there; a branch
taken to a label that no line declares is refused; a label goes on; halt and running past the last line set the status
to halted; the engine is not touched. That the first of several declarations is meant, that an unknown label is
refused, and that the engine has no edge while such a line runs are the model's choices (notes/assumptions/17.md).
(30_encoding.md rule R68.) -/
def Obligations.HostLinesWithoutARequest : Prop :=
  ∀ (p : Params) (prog : Program) (y : System), y.host.status = .running → y.host.phase = .idle →
    (∀ (vd : String) (ty : VType) (xs : List Int), prog[y.host.line]? = some (.stmt (.literal vd ty xs)) →
      ∃ env : HostMap, lookupName env vd = some ⟨ty.elem, xs⟩ ∧
        (∀ m : String, m ≠ vd → lookupName env m = lookupName y.host.env m) ∧
        systemStep p prog y =
          if xs.length = ty.count ∧ ∀ x ∈ xs, ty.elem.least ≤ x ∧ x ≤ ty.elem.greatest then
            .next { y with host := { y.host with env := env, line := y.host.line + 1 } }
          else .refused .badLiteral) ∧
    (∀ (l : String) (k : Nat), prog[k]? = some (.label l) → (∀ j < k, prog[j]? ≠ some (.label l)) →
      (prog[y.host.line]? = some (.stmt (.brNocap l)) →
        systemStep p prog y = .next { y with host := { y.host with
          line := if (y.engine.outputs p).capSupported then y.host.line + 1 else k } }) ∧
      (prog[y.host.line]? = some (.stmt (.br l)) →
        systemStep p prog y = .next { y with host := { y.host with line := k } })) ∧
    (∀ l : String, (∀ k : Nat, prog[k]? ≠ some (.label l)) →
      (prog[y.host.line]? = some (.stmt (.brNocap l)) →
        systemStep p prog y = if (y.engine.outputs p).capSupported then
          .next { y with host := { y.host with line := y.host.line + 1 } } else .refused .unknownLabel) ∧
      (prog[y.host.line]? = some (.stmt (.br l)) → systemStep p prog y = .refused .unknownLabel)) ∧
    (∀ l : String, prog[y.host.line]? = some (.label l) →
      systemStep p prog y = .next { y with host := { y.host with line := y.host.line + 1 } }) ∧
    (prog[y.host.line]? = some (.stmt .halt) ∨ prog[y.host.line]? = none →
      systemStep p prog y = .next { y with host := { y.host with status := .halted } })

/-- For all model arguments, every program and every running host between lines whose line issues a well-formed call, with
an engine not in reset, with any requests in Q, and with no request held but this line's own: some number of steps of
host and engine answers a state with CAPS unchanged and Q empty, in which the responses owed before and then this
request's have been delivered, and in which, with CAPS.SUPPORTED = 1, the destination is bound to the value-level
result, every other name keeps what it was bound to and the host runs on at the next line, and, with CAPS.SUPPORTED =
0, the status is faulted at this line (counted from 1) and nothing is bound. How host and engine take turns is the
model's choice (notes/assumptions/17.md). (30_encoding.md rules R68 and R69, 60_exceptions.md rule R111,
41_datapath.md rule R92, 20_memory.md rule R45.) -/
def Obligations.HostIssueMeetsValueLevel : Prop :=
  ∀ (p : Params) (prog : Program) (y : System) (vd va vl vr : String) (op : Op) (a l r : TypedVec),
    y.host.status = .running → y.host.phase = .idle →
    prog[y.host.line]? = some (.stmt (.issue vd op va vl vr)) →
    lookupName y.host.env va = some a → lookupName y.host.env vl = some l → lookupName y.host.env vr = some r →
    Call.wf ⟨op, a, l, r⟩ = true → y.engine.inReset = false →
    (y.engine.held = none ∨ y.engine.held = some (Call.request ⟨op, a, l, r⟩)) →
    ∃ (n : Nat) (z : System), runSystem p prog n y = .next z ∧ z.engine.q = [] ∧ z.engine.caps = y.engine.caps ∧
      z.engine.delivered = y.engine.delivered ++ y.engine.owed
        ++ [response y.engine.capSupported (Call.request ⟨op, a, l, r⟩)] ∧
      z.host.phase = .idle ∧
      (y.engine.capSupported = true → z.host.status = .running ∧ z.host.line = y.host.line + 1 ∧
        lookupName z.host.env vd = some (Call.result ⟨op, a, l, r⟩) ∧
        ∀ m : String, m ≠ vd → lookupName z.host.env m = lookupName y.host.env m) ∧
      (y.engine.capSupported = false → z.host.status = .faulted (y.host.line + 1) ∧ z.host.env = y.host.env)

/-- For every program and every running host between lines: an issue line whose operands are bound to values of wrong
element types or counts is refused; one whose operands have the types of rule R25 offers the request of rule R69 and
touches nothing else; and one of whose operands names no value is refused. Which host state the offer is recorded in,
and the refusal of a name without a value, are the model's choices (notes/assumptions/17.md). (30_encoding.md rules
R68 and R69, 10_state.md rule R25.) -/
def Obligations.HostIssueChecksTypes : Prop :=
  ∀ (p : Params) (prog : Program) (y : System) (vd va vl vr : String) (op : Op),
    y.host.status = .running → y.host.phase = .idle →
    prog[y.host.line]? = some (.stmt (.issue vd op va vl vr)) →
    (∀ a l r : TypedVec, lookupName y.host.env va = some a → lookupName y.host.env vl = some l →
      lookupName y.host.env vr = some r →
      systemStep p prog y =
        if (a.elem = .i32 ∧ a.elems.length = op.width.lanes) ∧
            (l.elem = op.source.leftElem ∧ l.elems.length = op.source.group * op.width.lanes) ∧
            (r.elem = op.source.rightElem ∧ r.elems.length = op.source.group * op.width.lanes) then
          .next { y with host := { y.host with
            phase := .offering vd op ⟨encodeOp op, packVec a, packVec l, packVec r⟩ } }
        else .refused .badOperand) ∧
    (lookupName y.host.env va = none ∨ lookupName y.host.env vl = none ∨ lookupName y.host.env vr = none →
      systemStep p prog y = .refused .badOperand)

/-- For all names that are made of letters, digits and underscores with no digit first, and every operation: the text of a
label, of br, br.nocap and halt, and of an issue line is read back as that line. What a name may hold is the model's
choice (notes/assumptions/17.md). (30_encoding.md rules R66 and R67.) -/
def Obligations.HostLinesReadBack : Prop :=
  ∀ vd va vl vr : String, isName vd = true → isName va = true → isName vl = true → isName vr = true →
    Line.parse (Line.text (.label vd)) = .ok (.label vd) ∧
    Line.parse (Line.text (.stmt (.br vd))) = .ok (.stmt (.br vd)) ∧
    Line.parse (Line.text (.stmt (.brNocap vd))) = .ok (.stmt (.brNocap vd)) ∧
    Line.parse (Line.text (.stmt .halt)) = .ok (.stmt .halt) ∧
    ∀ op : Op, Line.parse (Line.text (.stmt (.issue vd op va vl vr))) = .ok (.stmt (.issue vd op va vl vr))

/-- For every name, vector type and non-empty list of integers, the text of the literal line is read back as that line.
What a name may hold is the model's choice (notes/assumptions/17.md). (30_encoding.md rule R67.) -/
def Obligations.HostLiteralReadsBack : Prop :=
  ∀ (vd : String) (ty : VType) (xs : List Int), isName vd = true → xs ≠ [] →
    Line.parse (Line.text (.stmt (.literal vd ty xs))) = .ok (.stmt (.literal vd ty xs))
end

