-- ==== Sys2Proof/Laws/Abstract.lean ====
section
/-! SUPPORT. What the abstract steps of rule R70 can do, and sequences of them. -/

namespace Sys2Proof.Machine

/-- No step changes nothing. -/
@[simp] theorem runMoves_nil (n : Nat) (e : EngineState) : runMoves n [] e = some (e, []) := rfl

/-- One sequence after another. -/
theorem runMoves_append {n : Nat} {ms ms' : List Move} {e e' e'' : EngineState} {out out' : List Response}
    (h : runMoves n ms e = some (e', out)) (h' : runMoves n ms' e' = some (e'', out')) :
    runMoves n (ms ++ ms') e = some (e'', out ++ out') := by
  induction ms generalizing e out with
  | nil =>
    cases h
    simpa using h'
  | cons m ms ih =>
    simp only [runMoves, List.cons_append] at h ⊢
    cases hm : m.apply n e with
    | none => simp [hm] at h
    | some x =>
      cases hx : runMoves n ms x.1 with
      | none => simp [hm, hx] at h
      | some z =>
        simp only [hm, hx, Option.some.injEq, Prod.mk.injEq] at h
        obtain ⟨h, rfl⟩ := h
        have hz : runMoves n ms x.1 = some (e', z.2) := by rw [hx, ← h]
        simp [ih hz]

end Sys2Proof.Machine
end

