-- ==== Sys2Proof/Laws/Datapath.lean ====
section
/-! SUPPORT. What packing does to each lane of a bus (rule R28), what the whole datapath puts in each lane (rule R92),
and `wrap32` as the signed reading of 32 bits (rule R10). -/

namespace Sys2Proof.Machine

/-- `wrap32` reads the low 32 bits as a signed number (rule R10). -/
theorem wrap32_eq_toInt (x : Int) : wrap32 x = (BitVec.ofInt 32 x).toInt := by
  simp [wrap32, BitVec.toInt_ofInt]

/-- `wrap32` stays in the range of an i32 and in the residue class modulo 2^32 (rule R10). -/
theorem wrap32_spec (x : Int) :
    int32Min ≤ wrap32 x ∧ wrap32 x ≤ int32Max ∧ (wrap32 x - x) % 4294967296 = 0 := by
  unfold wrap32 Int.bmod int32Min int32Max
  simp only [Nat.reducePow, Nat.cast_ofNat]
  split <;> omega

/-- `wrap32` leaves an i32 alone (rule R10). -/
theorem wrap32_of_range {x : Int} (h : int32Min ≤ x) (h' : x ≤ int32Max) : wrap32 x = x := by
  have := wrap32_spec x
  unfold int32Min int32Max at *
  omega

/-- `sat32` leaves an i32 alone (rule R10). -/
theorem sat32_of_range {x : Int} (h : int32Min ≤ x) (h' : x ≤ int32Max) : sat32 x = x := by
  unfold sat32 int32Min int32Max at *
  split_ifs <;> omega

/-- `sat32` gives an i32 (rule R10). -/
theorem sat32_range (x : Int) : int32Min ≤ sat32 x ∧ sat32 x ≤ int32Max := by
  unfold sat32 int32Min int32Max
  split_ifs <;> omega

/-- The final combination gives an i32 (rules R89, R90). -/
theorem combine_range (t : Final) (x : Int) : int32Min ≤ combine t x ∧ combine t x ≤ int32Max := by
  cases t
  · exact ⟨(wrap32_spec x).1, (wrap32_spec x).2.1⟩
  · exact sat32_range x

theorem packLanes_toNat_cons {w : Nat} {v : Int} {vs : List Int} (hlen : w * (vs.length + 1) ≤ 256)
    (hvs : (packLanes w vs).toNat < 2 ^ (w * vs.length)) :
    (packLanes w (v :: vs)).toNat = (v % 2 ^ w).toNat + 2 ^ w * (packLanes w vs).toNat := by
  have hv : (v % 2 ^ w).toNat < 2 ^ w := by
    have h0 : (0 : Int) < 2 ^ w := by positivity
    have := Int.emod_lt_of_pos v h0
    have h1 := Int.emod_nonneg v h0.ne'
    zify
    rw [Int.toNat_of_nonneg h1]
    exact_mod_cast this
  have hw : w ≤ 256 := by nlinarith [Nat.zero_le vs.length]
  have hsh : (packLanes w vs).toNat * 2 ^ w < 2 ^ 256 := by
    calc (packLanes w vs).toNat * 2 ^ w < 2 ^ (w * vs.length) * 2 ^ w :=
          Nat.mul_lt_mul_of_pos_right hvs (by positivity)
      _ = 2 ^ (w * (vs.length + 1)) := by rw [← pow_add]; ring_nf
      _ ≤ 2 ^ 256 := Nat.pow_le_pow_right (by decide) hlen
  have hv' : (v % 2 ^ w).toNat < 2 ^ 256 := lt_of_lt_of_le hv (Nat.pow_le_pow_right (by decide) hw)
  simp only [packLanes, BitVec.toNat_or, BitVec.toNat_ofNat, BitVec.toNat_shiftLeft, Nat.shiftLeft_eq]
  rw [Nat.mod_eq_of_lt hv', Nat.mod_eq_of_lt hsh, Nat.lor_comm, Nat.mul_comm,
    ← Nat.two_pow_add_eq_or_of_lt hv]
  ring

/-- A packed list leaves the bits above its elements 0 (rule R28). -/
theorem packLanes_toNat_lt (w : Nat) (vs : List Int) (hlen : w * vs.length ≤ 256) :
    (packLanes w vs).toNat < 2 ^ (w * vs.length) := by
  induction vs with
  | nil => simp [packLanes]
  | cons v vs ih =>
    have hlen' : w * (vs.length + 1) ≤ 256 := by simpa using hlen
    have hvs := ih (by nlinarith)
    rw [packLanes_toNat_cons hlen' hvs, List.length_cons]
    have hv : (v % 2 ^ w).toNat < 2 ^ w := by
      have h0 : (0 : Int) < 2 ^ w := by positivity
      have := Int.emod_lt_of_pos v h0
      have h1 := Int.emod_nonneg v h0.ne'
      zify
      rw [Int.toNat_of_nonneg h1]
      exact_mod_cast this
    calc (v % 2 ^ w).toNat + 2 ^ w * (packLanes w vs).toNat
        < 2 ^ w * ((packLanes w vs).toNat + 1) := by rw [Nat.mul_add]; omega
      _ ≤ 2 ^ w * 2 ^ (w * vs.length) := Nat.mul_le_mul_left _ hvs
      _ = 2 ^ (w * (vs.length + 1)) := by rw [← pow_add]; ring_nf

/-- Element j of a packed list stands in its own w bits (rule R28). -/
theorem extract_packLanes (w : Nat) (vs : List Int) (hlen : w * vs.length ≤ 256) (j : Nat) (hj : j < vs.length) :
    (packLanes w vs).extractLsb' (w * j) w = BitVec.ofInt w vs[j] := by
  induction vs generalizing j with
  | nil => simp at hj
  | cons v vs ih =>
    have hlen' : w * (vs.length + 1) ≤ 256 := by simpa using hlen
    have hvl : w * vs.length ≤ 256 := by nlinarith
    have hvs := packLanes_toNat_lt w vs hvl
    have hcons := packLanes_toNat_cons (v := v) hlen' hvs
    have hv : (v % 2 ^ w).toNat < 2 ^ w := by
      have h0 : (0 : Int) < 2 ^ w := by positivity
      have := Int.emod_lt_of_pos v h0
      have h1 := Int.emod_nonneg v h0.ne'
      zify
      rw [Int.toNat_of_nonneg h1]
      exact_mod_cast this
    cases j with
    | zero =>
      apply BitVec.eq_of_toNat_eq
      rw [BitVec.extractLsb'_toNat, hcons, BitVec.toNat_ofInt]
      simp [Nat.mod_eq_of_lt hv]
    | succ j =>
      have hj' : j < vs.length := by simpa using hj
      rw [List.getElem_cons_succ, ← ih hvl j hj']
      apply BitVec.eq_of_toNat_eq
      rw [BitVec.extractLsb'_toNat, BitVec.extractLsb'_toNat, hcons]
      congr 1
      rw [Nat.shiftRight_eq_div_pow, Nat.shiftRight_eq_div_pow, Nat.mul_succ, Nat.add_comm (w * j) w, pow_add,
        ← Nat.div_div_eq_div_mul, Nat.add_mul_div_left _ _ (by positivity), Nat.div_eq_of_lt hv, Nat.zero_add]

/-- The bits of a packed list above its elements are 0 (rule R28). -/
theorem extract_packLanes_above (w : Nat) (vs : List Int) (hlen : w * vs.length ≤ 256) (n : Nat) :
    (packLanes w vs).extractLsb' (w * vs.length) n = 0#n := by
  apply BitVec.eq_of_toNat_eq
  rw [BitVec.extractLsb'_toNat, Nat.shiftRight_eq_div_pow, Nat.div_eq_of_lt (packLanes_toNat_lt w vs hlen)]
  simp

/-- Lane j of `pack32` is the element wrapped to 32 bits (rules R10, R28). -/
theorem lane32_pack32 (vs : List Int) (hlen : vs.length ≤ 8) (j : Nat) (hj : j < vs.length) :
    lane32 (pack32 vs) j = wrap32 vs[j] := by
  rw [lane32, pack32, extract_packLanes 32 vs (by omega) j hj, wrap32_eq_toInt]

@[simp] theorem resultLanes_length (o : Op) (a l r : Nat → Int) : (resultLanes o a l r).length = o.width.lanes := by
  simp [resultLanes]

theorem Width.lanes_le (w : Width) : w.lanes ≤ 8 := by
  cases w <;> decide

/-- What the whole datapath puts in lane i (rule R92). -/
theorem lane32_wma (o : Op) (a l r : Bus) (i : Nat) (hi : i < o.width.lanes) :
    lane32 (wma o a l r) i
      = laneResult o.final o.source.group (lane32 a) (leftLane o.source l) (rightLane o.source r) i := by
  rw [wma, lane32_pack32 _ (by simpa using Width.lanes_le o.width) i (by simpa using hi)]
  simp only [resultLanes, List.getElem_map, List.getElem_range]
  have := combine_range o.final
    (lane32 a i + groupSum o.source.group (leftLane o.source l) (rightLane o.source r) i)
  exact wrap32_of_range this.1 this.2

/-- The result bits above the N lanes are 0 (rules R29, R92). -/
theorem wma_above (o : Op) (a l r : Bus) (n : Nat) : (wma o a l r).extractLsb' (32 * o.width.lanes) n = 0#n := by
  have h := extract_packLanes_above 32
    (resultLanes o (lane32 a) (leftLane o.source l) (rightLane o.source r))
    (by have := Width.lanes_le o.width; simp; omega) n
  rwa [resultLanes_length] at h

/-- The byte-lane group sum written out (rules R85, R88). -/
theorem groupSum_four (l r : Nat → Int) (i : Nat) :
    groupSum 4 l r i = l (4 * i) * r (4 * i) + l (4 * i + 1) * r (4 * i + 1) + l (4 * i + 2) * r (4 * i + 2)
      + l (4 * i + 3) * r (4 * i + 3) := by
  simp [groupSum, product, List.range_succ]
  ring

/-- The word-lane group sum written out (rules R85, R88). -/
theorem groupSum_two (l r : Nat → Int) (i : Nat) :
    groupSum 2 l r i = l (2 * i) * r (2 * i) + l (2 * i + 1) * r (2 * i + 1) := by
  simp [groupSum, product, List.range_succ]

end Sys2Proof.Machine
end

