-- ==== Sys2Proof/Laws/HostProgram.lean ====
section
/-! SUPPORT. The host's map of named values (rule R68), and what a step of a host between lines is. -/

namespace Sys2Proof.Machine

/-- A bound name has the value bound to it. -/
theorem lookupName_bindName_same (n : String) (v : TypedVec) (env : HostMap) :
    lookupName (bindName n v env) n = some v := by
  induction env with
  | nil => simp [lookupName, bindName]
  | cons b rest ih =>
    obtain ⟨m, w⟩ := b
    unfold bindName
    by_cases h : m = n
    · simp [h, lookupName]
    · have h' : (n == m) = false := by simpa using fun e => h e.symm
      rw [if_neg h]
      simpa [lookupName, List.lookup_cons, h'] using ih

/-- Every other name keeps its value. -/
theorem lookupName_bindName_other (n m : String) (v : TypedVec) (env : HostMap) (h : m ≠ n) :
    lookupName (bindName n v env) m = lookupName env m := by
  induction env with
  | nil =>
    have h' : (m == n) = false := by simpa using h
    simp [lookupName, bindName, List.lookup_cons, h']
  | cons b rest ih =>
    obtain ⟨k, w⟩ := b
    unfold bindName
    by_cases hk : k = n
    · subst hk
      have h' : (m == k) = false := by simpa using h
      simp [lookupName, List.lookup_cons, h']
    · rw [if_neg hk]
      simp only [lookupName, List.lookup_cons] at ih ⊢
      cases hm : m == k <;> simp [ih]

/-- The line a label is found at is the first that declares it (log 17). -/
theorem findLabel_eq_some {prog : Program} {name : String} {k : Nat} (h : prog[k]? = some (.label name))
    (h' : ∀ j < k, prog[j]? ≠ some (.label name)) : findLabel prog name = some k := by
  obtain ⟨hk, hg⟩ := List.getElem?_eq_some_iff.1 h
  rw [findLabel, List.findIdx?_eq_some_iff_getElem]
  refine ⟨hk, by simp [hg], fun j hj => ?_⟩
  have := h' j hj
  rw [List.getElem?_eq_getElem (by omega)] at this
  simpa using this

/-- A label that no line declares is not found. -/
theorem findLabel_eq_none {prog : Program} {name : String} (h : ∀ k : Nat, prog[k]? ≠ some (.label name)) :
    findLabel prog name = none := by
  rw [findLabel, List.findIdx?_eq_none_iff]
  intro l hl
  obtain ⟨k, hk, rfl⟩ := List.getElem_of_mem hl
  have := h k
  rw [List.getElem?_eq_getElem hk] at this
  simpa using this

/-- A running host between lines runs its line. -/
theorem systemStep_line {y : System} (p : Params) (prog : Program) (h : y.host.status = .running)
    (h' : y.host.phase = .idle) : systemStep p prog y = runLine prog y := by
  simp only [systemStep, h, h']

/-- A halted or faulted host does nothing more. -/
theorem systemStep_stopped {y : System} (p : Params) (prog : Program) (h : y.host.status ≠ .running) :
    systemStep p prog y = .next y := by
  unfold systemStep
  split <;> simp_all

end Sys2Proof.Machine
end

