-- ==== Sys2Proof/Laws/Lanes.lean ====
section
/-! SUPPORT. The ranges of the lanes of a bus (rule R86), and what a lane of a packed list of in-range elements reads
(rules R28, R63). -/

namespace Sys2Proof.Machine

theorem u8lane_range (b : Bus) (k : Nat) : 0 ≤ u8lane b k ∧ u8lane b k ≤ 255 := by
  have := (b.extractLsb' (8 * k) 8).isLt
  unfold u8lane
  omega

theorem i8lane_range (b : Bus) (k : Nat) : -128 ≤ i8lane b k ∧ i8lane b k ≤ 127 := by
  unfold i8lane
  have h := (b.extractLsb' (8 * k) 8).toInt_lt
  have h' := (b.extractLsb' (8 * k) 8).le_toInt
  simp only [Nat.reduceSub, Int.reducePow, Int.reduceNeg] at h h'
  omega

theorem i16lane_range (b : Bus) (k : Nat) : -32768 ≤ i16lane b k ∧ i16lane b k ≤ 32767 := by
  unfold i16lane
  have h := (b.extractLsb' (16 * k) 16).toInt_lt
  have h' := (b.extractLsb' (16 * k) 16).le_toInt
  simp only [Nat.reduceSub, Int.reducePow, Int.reduceNeg] at h h'
  omega

theorem lane32_range (b : Bus) (k : Nat) : int32Min ≤ lane32 b k ∧ lane32 b k ≤ int32Max := by
  unfold lane32 int32Min int32Max
  have h := (b.extractLsb' (32 * k) 32).toInt_lt
  have h' := (b.extractLsb' (32 * k) 32).le_toInt
  simp only [Nat.reduceSub, Int.reducePow, Int.reduceNeg] at h h'
  omega

/-- A packed element that fits in w bits unsigned is read back unsigned. -/
theorem packLanes_toNat (w : Nat) (vs : List Int) (hlen : w * vs.length ≤ 256) (k : Nat) (hk : k < vs.length)
    (h : 0 ≤ vs[k]) (h' : vs[k] < 2 ^ w) : (((packLanes w vs).extractLsb' (w * k) w).toNat : Int) = vs[k] := by
  rw [extract_packLanes w vs hlen k hk, BitVec.toNat_ofInt, Int.toNat_of_nonneg (Int.emod_nonneg _ (by positivity))]
  exact Int.emod_eq_of_lt h (by exact_mod_cast h')

/-- A packed element that fits in w bits signed is read back signed. -/
theorem packLanes_toInt (w : Nat) (hw : 0 < w) (vs : List Int) (hlen : w * vs.length ≤ 256) (k : Nat)
    (hk : k < vs.length) (h : -2 ^ (w - 1) ≤ vs[k]) (h' : vs[k] < 2 ^ (w - 1)) :
    ((packLanes w vs).extractLsb' (w * k) w).toInt = vs[k] := by
  rw [extract_packLanes w vs hlen k hk, BitVec.toInt_ofInt]
  obtain ⟨w, rfl⟩ : ∃ v, w = v + 1 := ⟨w - 1, by omega⟩
  simp only [Nat.add_sub_cancel] at h h'
  apply Int.bmod_eq_of_le <;> simp [pow_succ] <;> omega

/-- The result lanes depend on the N addend lanes and the G·N narrow elements of each operand alone (rules R85, R92). -/
theorem resultLanes_congr (o : Op) {a a' l l' r r' : Nat → Int} (ha : ∀ i < o.width.lanes, a i = a' i)
    (hl : ∀ k < o.narrowCount, l k = l' k) (hr : ∀ k < o.narrowCount, r k = r' k) :
    resultLanes o a l r = resultLanes o a' l' r' := by
  unfold resultLanes
  apply List.map_congr_left
  intro i hi
  have hi : i < o.width.lanes := by simpa using hi
  unfold laneResult groupSum
  rw [ha i hi]
  congr 3
  apply List.map_congr_left
  intro k hk
  have hk : k < o.source.group := by simpa using hk
  have h : o.source.group * i + k < o.narrowCount := by
    unfold Op.narrowCount
    nlinarith
  unfold product
  rw [hl _ h, hr _ h]

end Sys2Proof.Machine
end

