-- ==== Sys2Proof/Laws/PerInstr.lean ====
section
/-! SUPPORT. The families of statements that are made instruction by instruction. -/

namespace Sys2Proof.Laws.EncodesOp

/-- The op field of an instruction's request names the instruction's own tuple (rules R61, R62). -/
def Statement (i : Instr) : Prop := decodeOp (encode i).op = i.op

theorem mwaddB128 (addend left right : Bus) : Statement (.mwaddB128 addend left right) := by
  simp [Statement, encode, decodeOp, Instr.op]

theorem mwaddsB128 (addend left right : Bus) : Statement (.mwaddsB128 addend left right) := by
  simp [Statement, encode, decodeOp, Instr.op]

theorem mwaddW128 (addend left right : Bus) : Statement (.mwaddW128 addend left right) := by
  simp [Statement, encode, decodeOp, Instr.op]

theorem mwaddsW128 (addend left right : Bus) : Statement (.mwaddsW128 addend left right) := by
  simp [Statement, encode, decodeOp, Instr.op]

theorem mwaddB256 (addend left right : Bus) : Statement (.mwaddB256 addend left right) := by
  simp [Statement, encode, decodeOp, Instr.op]

theorem mwaddsB256 (addend left right : Bus) : Statement (.mwaddsB256 addend left right) := by
  simp [Statement, encode, decodeOp, Instr.op]

theorem mwaddW256 (addend left right : Bus) : Statement (.mwaddW256 addend left right) := by
  simp [Statement, encode, decodeOp, Instr.op]

theorem mwaddsW256 (addend left right : Bus) : Statement (.mwaddsW256 addend left right) := by
  simp [Statement, encode, decodeOp, Instr.op]

end Sys2Proof.Laws.EncodesOp
end

