-- ==== Sys2Proof/Laws/State.lean ====
section
/-! SUPPORT. Each field of State after each update of it, and at reset. -/

namespace Sys2Proof.Machine

@[simp] theorem State.respond_caps (st : BitVec 1) (res : Bus) (s : State) :
    (s.respond st res).caps = s.caps := rfl

@[simp] theorem State.respond_q (st : BitVec 1) (res : Bus) (s : State) :
    (s.respond st res).q = s.q := rfl

@[simp] theorem State.respond_inReset (st : BitVec 1) (res : Bus) (s : State) :
    (s.respond st res).inReset = s.inReset := rfl

@[simp] theorem State.respond_rspWait (st : BitVec 1) (res : Bus) (s : State) :
    (s.respond st res).rspWait = s.rspWait := rfl

@[simp] theorem State.respond_held (st : BitVec 1) (res : Bus) (s : State) :
    (s.respond st res).held = s.held := rfl

@[simp] theorem State.respond_inputs (st : BitVec 1) (res : Bus) (s : State) :
    (s.respond st res).inputs = s.inputs := rfl

@[simp] theorem State.respond_delivered (st : BitVec 1) (res : Bus) (s : State) :
    (s.respond st res).delivered = s.delivered ++ [⟨st, res⟩] := rfl

@[simp] theorem State.respond_draws (st : BitVec 1) (res : Bus) (s : State) :
    (s.respond st res).draws = s.draws := rfl

@[simp] theorem State.raiseUnsupported_caps (s : State) :
    (s.raiseUnsupported).caps = s.caps := rfl

@[simp] theorem State.raiseUnsupported_q (s : State) :
    (s.raiseUnsupported).q = s.q := rfl

@[simp] theorem State.raiseUnsupported_inReset (s : State) :
    (s.raiseUnsupported).inReset = s.inReset := rfl

@[simp] theorem State.raiseUnsupported_rspWait (s : State) :
    (s.raiseUnsupported).rspWait = s.rspWait := rfl

@[simp] theorem State.raiseUnsupported_held (s : State) :
    (s.raiseUnsupported).held = s.held := rfl

@[simp] theorem State.raiseUnsupported_inputs (s : State) :
    (s.raiseUnsupported).inputs = s.inputs := rfl

@[simp] theorem State.raiseUnsupported_delivered (s : State) :
    (s.raiseUnsupported).delivered = s.delivered ++ [⟨statusUnsupported, 0#256⟩] := rfl

@[simp] theorem State.raiseUnsupported_draws (s : State) :
    (s.raiseUnsupported).draws = s.draws := rfl

@[simp] theorem State.assertReset_caps (p : Params) (s : State) :
    (s.assertReset p).caps = p.freeCaps s.draws := rfl

@[simp] theorem State.assertReset_q (p : Params) (s : State) :
    (s.assertReset p).q = [] := rfl

@[simp] theorem State.assertReset_inReset (p : Params) (s : State) :
    (s.assertReset p).inReset = true := rfl

@[simp] theorem State.assertReset_rspWait (p : Params) (s : State) :
    (s.assertReset p).rspWait = 0 := rfl

@[simp] theorem State.assertReset_held (p : Params) (s : State) :
    (s.assertReset p).held = s.held := rfl

@[simp] theorem State.assertReset_inputs (p : Params) (s : State) :
    (s.assertReset p).inputs = s.inputs := rfl

@[simp] theorem State.assertReset_delivered (p : Params) (s : State) :
    (s.assertReset p).delivered = s.delivered := rfl

@[simp] theorem State.assertReset_draws (p : Params) (s : State) :
    (s.assertReset p).draws = s.draws := rfl

@[simp] theorem State.release_caps (c x : Bool) (s : State) :
    (s.release c x).caps = capsWord c x := rfl

@[simp] theorem State.release_q (c x : Bool) (s : State) :
    (s.release c x).q = s.q := rfl

@[simp] theorem State.release_inReset (c x : Bool) (s : State) :
    (s.release c x).inReset = false := rfl

@[simp] theorem State.release_rspWait (c x : Bool) (s : State) :
    (s.release c x).rspWait = s.rspWait := rfl

@[simp] theorem State.release_held (c x : Bool) (s : State) :
    (s.release c x).held = s.held := rfl

@[simp] theorem State.release_inputs (c x : Bool) (s : State) :
    (s.release c x).inputs = s.inputs := rfl

@[simp] theorem State.release_delivered (c x : Bool) (s : State) :
    (s.release c x).delivered = s.delivered := rfl

@[simp] theorem State.release_draws (c x : Bool) (s : State) :
    (s.release c x).draws = s.draws := rfl

@[simp] theorem State.endEdge_caps (p : Params) (inp : PortIn) (d : Bool) (s : State) :
    (s.endEdge p inp d).caps = s.caps := rfl

@[simp] theorem State.endEdge_q (p : Params) (inp : PortIn) (d : Bool) (s : State) :
    (s.endEdge p inp d).q = s.nextQ p inp d := rfl

@[simp] theorem State.endEdge_inReset (p : Params) (inp : PortIn) (d : Bool) (s : State) :
    (s.endEdge p inp d).inReset = s.inReset := rfl

@[simp] theorem State.endEdge_rspWait (p : Params) (inp : PortIn) (d : Bool) (s : State) :
    (s.endEdge p inp d).rspWait = s.nextWait p inp d := rfl

@[simp] theorem State.endEdge_held (p : Params) (inp : PortIn) (d : Bool) (s : State) :
    (s.endEdge p inp d).held = if inp.reqValid && !s.accepts p inp then some inp.req else none := rfl

@[simp] theorem State.endEdge_inputs (p : Params) (inp : PortIn) (d : Bool) (s : State) :
    (s.endEdge p inp d).inputs = s.inputs := rfl

@[simp] theorem State.endEdge_delivered (p : Params) (inp : PortIn) (d : Bool) (s : State) :
    (s.endEdge p inp d).delivered = s.delivered := rfl

@[simp] theorem State.endEdge_draws (p : Params) (inp : PortIn) (d : Bool) (s : State) :
    (s.endEdge p inp d).draws = s.draws + 1 := rfl

@[simp] theorem State.withRequest_caps (p : Params) (r : Request) (s : State) :
    (s.withRequest p r).caps = s.caps := rfl

@[simp] theorem State.withRequest_q (p : Params) (r : Request) (s : State) :
    (s.withRequest p r).q = r :: s.q.tail := rfl

@[simp] theorem State.withRequest_inReset (p : Params) (r : Request) (s : State) :
    (s.withRequest p r).inReset = false := rfl

@[simp] theorem State.withRequest_rspWait (p : Params) (r : Request) (s : State) :
    (s.withRequest p r).rspWait = 0 := rfl

@[simp] theorem State.withRequest_held (p : Params) (r : Request) (s : State) :
    (s.withRequest p r).held = none := rfl

@[simp] theorem State.withRequest_inputs (p : Params) (r : Request) (s : State) :
    (s.withRequest p r).inputs = takeEdge p :: s.inputs := rfl

@[simp] theorem State.withRequest_delivered (p : Params) (r : Request) (s : State) :
    (s.withRequest p r).delivered = s.delivered := rfl

@[simp] theorem State.withRequest_draws (p : Params) (r : Request) (s : State) :
    (s.withRequest p r).draws = s.draws := rfl

@[simp] theorem State.reset_q : State.reset.q = [] := rfl

@[simp] theorem State.reset_inReset : State.reset.inReset = false := rfl

@[simp] theorem State.reset_rspWait : State.reset.rspWait = 0 := rfl

@[simp] theorem State.reset_held : State.reset.held = none := rfl

@[simp] theorem State.reset_inputs : State.reset.inputs = [] := rfl

@[simp] theorem State.reset_delivered : State.reset.delivered = [] := rfl

@[simp] theorem State.reset_draws : State.reset.draws = 0 := rfl

@[simp] theorem State.reset_caps : State.reset.caps = capsWord Config.capSupported Config.capX64 := rfl

/-- Bit 0 of CAPS is SUPPORTED (rule R23). -/
@[simp] theorem capsWord_supported (c x : Bool) : (capsWord c x)[0] = c := by
  cases c <;> cases x <;> rfl

/-- Bit 1 of CAPS is X64 (rule R23). -/
@[simp] theorem capsWord_x64 (c x : Bool) : (capsWord c x)[1] = x := by
  cases c <;> cases x <;> rfl

@[simp] theorem State.release_capSupported (c x : Bool) (s : State) : (s.release c x).capSupported = c := by
  simp [State.capSupported]

@[simp] theorem State.release_capX64 (c x : Bool) (s : State) : (s.release c x).capX64 = x := by
  simp [State.capX64]

end Sys2Proof.Machine
end

