-- ==== Sys2Proof/Laws/Step.lean ====
section
/-! SUPPORT. What each shared operation, one clock edge and one step can do, said once. -/

namespace Sys2Proof.Machine

/-- Executing an operation answers with one response and changes nothing else (rules R43, R111). -/
theorem runGated_eq (o : Op) (a l r : Bus) (s : State) :
    runGated o a l r s = { s with delivered := s.delivered ++
      [if s.capSupported then ⟨statusOk, wma o a l r⟩ else ⟨statusUnsupported, 0#256⟩] } := by
  unfold runGated State.raiseUnsupported State.respond
  split <;> rfl

/-- The decoded tuple of a request is that of its instruction (rules R61, R62). -/
theorem decode_op (r : Request) : (decode r).op = decodeOp r.op := by
  unfold decode
  split <;> simp_all [Instr.op]

/-- Executing the instruction of a request gives the response F of rule R43. -/
theorem exec_decode (r : Request) (s : State) :
    exec (decode r) s = .next { s with delivered := s.delivered ++ [response s.capSupported r] } := by
  unfold decode response
  split <;> rename_i h <;> rw [h] <;>
    simp only [exec, execMwaddB128, execMwaddsB128, execMwaddW128, execMwaddsW128, execMwaddB256, execMwaddsB256,
      execMwaddW256, execMwaddsW256, runGated_eq]

/-- `rsp_valid` = 1 says that reset is not asserted and that Q has a head whose wait is over (rule R70). -/
theorem State.rspValid_iff (s : State) :
    s.rspValid = true ↔ s.inReset = false ∧ (∃ r rest, s.q = r :: rest) ∧ s.rspWait = 0 := by
  unfold State.rspValid
  cases h : s.q <;> simp

/-- The response data outputs while `rsp_valid` = 1 (rules R43, R70). -/
theorem State.rspData_of_valid {s : State} {r : Request} {rest : List Request} (p : Params)
    (hv : s.rspValid = true) (hq : s.q = r :: rest) : s.rspData p = response s.capSupported r := by
  unfold State.rspData
  rw [hv, hq]

/-- The transfers of an edge always answer a next state (rules R70, R138): a delivery adds the head's response, and Q
and the port's bookkeeping move on. -/
theorem transfer_eq (p : Params) (inp : PortIn) (s : State) :
    transfer p inp s = .next (State.endEdge p inp (s.delivers inp)
      (if s.delivers inp then { s with delivered := s.delivered ++ [s.rspData p] } else s)) := by
  unfold transfer
  cases hd : s.delivers inp with
  | false => simp
  | true =>
    have hv : s.rspValid = true := by
      simp only [State.delivers, Bool.and_eq_true] at hd
      exact hd.1
    obtain ⟨-, ⟨r, rest, hq⟩, -⟩ := (State.rspValid_iff s).1 hv
    rw [hq]
    simp only [exec_decode, State.rspData_of_valid p hv hq, if_true, hq]

/-- One clock edge (rules R70, R134): it answers a next state exactly when the host kept its offer stable. -/
theorem clockEdge_eq (p : Params) (inp : PortIn) (s : State) (h : s.stable inp = true) :
    clockEdge p inp s = .next (State.endEdge p inp ((s.settle p inp).delivers inp)
      (if (s.settle p inp).delivers inp then
        { s.settle p inp with delivered := (s.settle p inp).delivered ++ [(s.settle p inp).rspData p] }
      else s.settle p inp)) := by
  rw [clockEdge, if_pos h, transfer_eq]

/-- A clock edge with an unstable offer is refused (rule R134). -/
theorem clockEdge_unstable (p : Params) (inp : PortIn) (s : State) (h : s.stable inp = false) :
    clockEdge p inp s = .refused .unstableRequest := by
  simp [clockEdge, h]

/-- The inversion of a clock edge. -/
theorem clockEdge_next {p : Params} {inp : PortIn} {s t : State} (h : clockEdge p inp s = .next t) :
    s.stable inp = true ∧ t = State.endEdge p inp ((s.settle p inp).delivers inp)
      (if (s.settle p inp).delivers inp then
        { s.settle p inp with delivered := (s.settle p inp).delivered ++ [(s.settle p inp).rspData p] }
      else s.settle p inp) := by
  cases hs : s.stable inp with
  | false => rw [clockEdge_unstable p inp s hs] at h; cases h
  | true =>
    rw [clockEdge_eq p inp s hs] at h
    exact ⟨rfl, (Host.Outcome.next.inj h).symm⟩

/-- What a clock edge does to each field. -/
theorem clockEdge_fields {p : Params} {inp : PortIn} {s t : State} (h : clockEdge p inp s = .next t) :
    t.caps = (s.settle p inp).caps ∧ t.inReset = (s.settle p inp).inReset ∧
    t.q = (s.settle p inp).nextQ p inp ((s.settle p inp).delivers inp) ∧
    t.rspWait = (s.settle p inp).nextWait p inp ((s.settle p inp).delivers inp) ∧
    t.held = (if inp.reqValid && !(s.settle p inp).accepts p inp then some inp.req else none) ∧
    t.inputs = s.inputs ∧ t.draws = s.draws + 1 ∧
    t.delivered = s.delivered ++
      (if (s.settle p inp).delivers inp then [(s.settle p inp).rspData p] else []) := by
  obtain ⟨-, rfl⟩ := clockEdge_next h
  have hi : (s.settle p inp).inputs = s.inputs := by unfold State.settle; split_ifs <;> rfl
  have hw : (s.settle p inp).draws = s.draws := by unfold State.settle; split_ifs <;> rfl
  have hl : (s.settle p inp).delivered = s.delivered := by unfold State.settle; split_ifs <;> rfl
  cases (s.settle p inp).delivers inp <;>
    simp [State.endEdge, State.nextQ, State.nextWait, State.accepts, State.reqReady, hi, hw, hl]

/-- The level of `rst` at an edge is the reset state after it (rules R130, R131). -/
theorem State.settle_inReset (p : Params) (inp : PortIn) (s : State) : (s.settle p inp).inReset = inp.rst := by
  unfold State.settle
  cases h : inp.rst <;> cases h' : s.inReset <;> simp [h']

/-- Reset asserted (rule R130). -/
theorem State.settle_rst {p : Params} {inp : PortIn} {s : State} (h : inp.rst = true) :
    s.settle p inp = s.assertReset p := by
  simp [State.settle, h]

/-- Reset released (rule R131). -/
theorem State.settle_release {p : Params} {inp : PortIn} {s : State} (h : inp.rst = false)
    (h' : s.inReset = true) : s.settle p inp = s.release inp.strapCapSupported inp.strapCapX64 := by
  simp [State.settle, h, h']

/-- With reset not asserted before or at the edge, the level of `rst` does nothing. -/
theorem State.settle_running {p : Params} {inp : PortIn} {s : State} (h : inp.rst = false)
    (h' : s.inReset = false) : s.settle p inp = s := by
  simp [State.settle, h, h']

/-- A step with no port levels to come changes nothing (log 1). -/
theorem step_idle {s : State} (h : s.inputs = []) : step s = .next s := by
  simp [step, clockStep, h]

/-- A step with port levels to come is one clock edge. -/
theorem step_edge {s : State} {inp : PortIn} {rest : List PortIn} (h : s.inputs = inp :: rest) :
    step s = clockEdge Config.chip inp { s with inputs := rest } := by
  simp [step, clockStep, h]

end Sys2Proof.Machine
end

