-- ==== Sys2Proof/Tests/Slice0.lean ====
section
/-! SUPPORT. Tests: the ill-formed terms each check refuses, one word for each instruction's decoding, vectors of
95_test_vectors.md, and for each statement with hypotheses a case that meets them. -/

namespace Sys2Proof.Tests

open Sys2Proof.Machine

/-! ## Helpers -/

/-- A machine with the gate true. -/
def up : State := { State.reset with caps := capsWord true false }

/-- A machine with the gate false. -/
def down : State := { State.reset with caps := capsWord false true }

/-- Model arguments with MAX_INFLIGHT = 2 and a wait of one edge. -/
def two : Params where
  capSupported := true
  capX64 := false
  extraInflight := 1
  rspLatency := fun _ => 1
  freeCaps := fun _ => 2#2
  freeRsp := fun _ => ⟨1#1, 5#256⟩

/-- The last response after executing an instruction. -/
def answer (i : Instr) (s : State) : Option Response :=
  match exec i s with
  | .next t => t.delivered.getLast?
  | _ => none

/-- A check of the next state of an outcome; false if there is none. -/
def after (out : Host.Outcome State Fault Refusal) (check : State → Bool) : Bool :=
  match out with
  | .next t => check t
  | _ => false

/-- Whether an outcome is the refusal of an unstable request. -/
def unstable (out : Host.Outcome State Fault Refusal) : Bool :=
  match out with
  | .refused w => w == .unstableRequest
  | _ => false

/-- Request A of 95_test_vectors.md section 2.9 (V42-1). -/
def reqA : Request := ⟨0b000#3, 0#256, 0#256, 0#256⟩

/-- Request B of 95_test_vectors.md section 2.9 (V42-5). -/
def reqB : Request := ⟨0b000#3, 0x7fffffff#256, 1#256, 1#256⟩

/-- An edge that offers a request and takes nothing. -/
def offer (r : Request) : PortIn := { offerEdge two r with rspReady := false }

/-- An edge that offers nothing and takes nothing. -/
def idle : PortIn := { takeEdge two with rspReady := false }

/-- An edge with reset asserted. -/
def rst : PortIn := { idle with rst := true }

/-- A state with request A and then B in Q and the response of A offered. -/
def queued : State := { up with q := [reqA, reqB] }

/-- The byte-lane call of 95_test_vectors.md L1-1. -/
def sampleCall : Call where
  op := ⟨.w128, .byte, .wrap⟩
  addend := ⟨.i32, [0, 0, 0, 0]⟩
  left := ⟨.u8, [1, 2, 3, 4, 0, 0, 0, 0, 0, 0, 0, 0, 0, 0, 0, 0]⟩
  right := ⟨.i8, [1, 1, 1, 1, 0, 0, 0, 0, 0, 0, 0, 0, 0, 0, 0, 0]⟩

/-! ## Ill-formed terms (rules R26, R68, R114) -/

theorem test_counts_refused :
    { sampleCall with addend := ⟨.i32, [0, 0, 0]⟩ }.countsOk = false := by decide

theorem test_ranges_refused :
    { sampleCall with addend := ⟨.i32, [0, 0, 0, 2147483648]⟩ }.rangesOk = false := by decide

theorem test_types_refused :
    { sampleCall with addend := ⟨.u8, [0, 0, 0, 0]⟩ }.typesOk = false := by decide

theorem test_inRange_refuses_negative_u8 : (TypedVec.mk .u8 [-1]).inRange = false := by decide

theorem test_literal_count_refused : VType.literalOk .i32x4 [1, 2, 3] = false := by decide

theorem test_literal_range_refused : VType.literalOk .i32x4 [1, 2, 3, -2147483649] = false := by decide

theorem test_sample_call_well_formed : sampleCall.wf = true := by decide

/-! ## Decoding: the op field written out from rule R62 -/

theorem test_decode_mwaddB128 :
    decodeWord (0b000#3 ++ 1#256 ++ 2#256 ++ 3#256) = .mwaddB128 1#256 2#256 3#256 := by decide

theorem test_table_word_mwaddB128 : decodeTableWord 8 0b000 = some (.mwaddB128 0#256 0#256 0#256) := by decide

theorem test_decode_mwaddsB128 :
    decodeWord (0b001#3 ++ 1#256 ++ 2#256 ++ 3#256) = .mwaddsB128 1#256 2#256 3#256 := by decide

theorem test_table_word_mwaddsB128 : decodeTableWord 8 0b001 = some (.mwaddsB128 0#256 0#256 0#256) := by decide

theorem test_decode_mwaddW128 :
    decodeWord (0b010#3 ++ 1#256 ++ 2#256 ++ 3#256) = .mwaddW128 1#256 2#256 3#256 := by decide

theorem test_table_word_mwaddW128 : decodeTableWord 8 0b010 = some (.mwaddW128 0#256 0#256 0#256) := by decide

theorem test_decode_mwaddsW128 :
    decodeWord (0b011#3 ++ 1#256 ++ 2#256 ++ 3#256) = .mwaddsW128 1#256 2#256 3#256 := by decide

theorem test_table_word_mwaddsW128 : decodeTableWord 8 0b011 = some (.mwaddsW128 0#256 0#256 0#256) := by decide

theorem test_decode_mwaddB256 :
    decodeWord (0b100#3 ++ 1#256 ++ 2#256 ++ 3#256) = .mwaddB256 1#256 2#256 3#256 := by decide

theorem test_table_word_mwaddB256 : decodeTableWord 8 0b100 = some (.mwaddB256 0#256 0#256 0#256) := by decide

theorem test_decode_mwaddsB256 :
    decodeWord (0b101#3 ++ 1#256 ++ 2#256 ++ 3#256) = .mwaddsB256 1#256 2#256 3#256 := by decide

theorem test_table_word_mwaddsB256 : decodeTableWord 8 0b101 = some (.mwaddsB256 0#256 0#256 0#256) := by decide

theorem test_decode_mwaddW256 :
    decodeWord (0b110#3 ++ 1#256 ++ 2#256 ++ 3#256) = .mwaddW256 1#256 2#256 3#256 := by decide

theorem test_table_word_mwaddW256 : decodeTableWord 8 0b110 = some (.mwaddW256 0#256 0#256 0#256) := by decide

theorem test_decode_mwaddsW256 :
    decodeWord (0b111#3 ++ 1#256 ++ 2#256 ++ 3#256) = .mwaddsW256 1#256 2#256 3#256 := by decide

theorem test_table_word_mwaddsW256 : decodeTableWord 8 0b111 = some (.mwaddsW256 0#256 0#256 0#256) := by decide

/-! ## Vectors of 95_test_vectors.md -/

/-- V42-4. -/
theorem test_mwaddB128_v42_4 :
    answer (.mwaddB128 0#256
      0x80#256
      0x80#256) up
    = some ⟨0#1, 0xffffc000#256⟩ := by decide

/-- section 2.7. -/
theorem test_mwaddB128_upper_half :
    answer (.mwaddB128 0xdeadbeef0000000000000004000000030000000200000001#256
      0xffffffff00000000000000000001010101010101010101010101010101#256
      0x1234567802020202020202020202020202020202#256) up
    = some ⟨0#1, 0xc0000000b0000000a00000009#256⟩ := by decide

/-- L1-3. -/
theorem test_mwaddsB128_l1_3 :
    answer (.mwaddsB128 0x7fffffff#256
      0xffffffff#256
      0x7f7f7f7f#256) up
    = some ⟨0#1, 0x7fffffff#256⟩ := by decide

/-- V43-6. -/
theorem test_mwaddsB128_v43_6 :
    answer (.mwaddsB128 0x80000000#256
      0xffffffff#256
      0x80808080#256) up
    = some ⟨0#1, 0x80000000#256⟩ := by decide

/-- L1-3. -/
theorem test_mwaddW128_l1_3 :
    answer (.mwaddW128 0x7fffffff#256
      0x7fff7fff#256
      0x7fff7fff#256) up
    = some ⟨0#1, 0xfffe0001#256⟩ := by decide

/-- V42-9. -/
theorem test_mwaddW128_v42_9 :
    answer (.mwaddW128 0#256
      0x80008000#256
      0x80008000#256) up
    = some ⟨0#1, 0x80000000#256⟩ := by decide

/-- V43-9. -/
theorem test_mwaddsW128_v43_9 :
    answer (.mwaddsW128 0#256
      0x80008000#256
      0x80008000#256) up
    = some ⟨0#1, 0x7fffffff#256⟩ := by decide

/-- V43-18. -/
theorem test_mwaddsW128_v43_18 :
    answer (.mwaddsW128 0x80000000#256
      0x80008000#256
      0x80008000#256) up
    = some ⟨0#1, 0#256⟩ := by decide

/-- P4 line 10. -/
theorem test_mwaddB256_p4 :
    answer (.mwaddB256 0xfffffff800000007fffffffa00000005fffffffc00000003fffffffe00000001#256
      0xdcd5cec7c0b9b2aba49d968f88817a736c655e575049423b342d261f18110a03#256
      0xd5cabfb4a99e93887d72675c51463b30251a0f04f9eee3d8cdc2b7aca1968b80#256) up
    = some ⟨0#1, 0xffff3eb4fffedc03000105b600008001000020b8ffffe7ffffffd5baffffe9fd#256⟩ := by decide

/-- V42-14. -/
theorem test_mwaddB256_v42_14 :
    answer (.mwaddB256 0x700000006000000050000000400000003000000020000000100000000#256
      0x202020202020202020202020202020202020202020202020202020202020202#256
      0xffffffffffffffffffffffffffffffffffffffffffffffffffffffffffffffff#256) up
    = some ⟨0#1, 0xfffffffffffffffefffffffdfffffffcfffffffbfffffffafffffff9fffffff8#256⟩ := by decide

/-- V43-19. -/
theorem test_mwaddsB256_v43_19 :
    answer (.mwaddsB256 0x80000000#256
      0xffffffff#256
      0x80808080#256) up
    = some ⟨0#1, 0x80000000#256⟩ := by decide

/-- V43-14. -/
theorem test_mwaddsB256_v43_14 :
    answer (.mwaddsB256 0x700000006000000050000000400000003000000020000000100000000#256
      0x202020202020202020202020202020202020202020202020202020202020202#256
      0xffffffffffffffffffffffffffffffffffffffffffffffffffffffffffffffff#256) up
    = some ⟨0#1, 0xfffffffffffffffefffffffdfffffffcfffffffbfffffffafffffff9fffffff8#256⟩ := by decide

/-- P2 line 10. -/
theorem test_mwaddW256_p2_line_10 :
    answer (.mwaddW256 0x88ca6c0188ca681888ca6c0088ca6c00773593ff773597e87735940000000000#256
      0xb1e0b1e0b1e0b1e0b1e0b1e0b1e0b1e04e204e204e204e204e204e2080008000#256
      0x61a861a861a861a861a861a861a861a861a861a861a861a861a861a880008000#256) up
    = some ⟨0#1, 0x4d2fa2014d2f9e184d2fa2004d2fa200b2d05dffb2d061e8b2d05e0080000000#256⟩ := by decide

/-- V42-17. -/
theorem test_mwaddW256_v42_17 :
    answer (.mwaddW256 0x7fffffff00000000000000000000000000000000000000000000000000000000#256
      0x8000800000000000000000000000000000000000000000000000000000000000#256
      0x8000800000000000000000000000000000000000000000000000000000000000#256) up
    = some ⟨0#1, 0xffffffff00000000000000000000000000000000000000000000000000000000#256⟩ := by decide

/-- P2 line 7. -/
theorem test_mwaddsW256_p2_line_7 :
    answer (.mwaddsW256 0x88ca6c0188ca681888ca6c0088ca6c00773593ff773597e8773594007fffffff#256
      0xb1e0b1e0b1e0b1e0b1e0b1e0b1e0b1e04e204e204e204e204e204e2080008000#256
      0x61a861a861a861a861a861a861a861a861a861a861a861a861a861a880008000#256) up
    = some ⟨0#1, 0x800000008000000080000000800000007fffffff7fffffff7fffffff7fffffff#256⟩ := by decide

/-- V43-17. -/
theorem test_mwaddsW256_v43_17 :
    answer (.mwaddsW256 0x7fffffff00000000000000000000000000000000000000000000000000000000#256
      0x8000800000000000000000000000000000000000000000000000000000000000#256
      0x8000800000000000000000000000000000000000000000000000000000000000#256) up
    = some ⟨0#1, 0x7fffffff00000000000000000000000000000000000000000000000000000000#256⟩ := by decide

/-- L1-6 and section 2.8: the gate false. -/
theorem test_gate_false : answer (.mwaddsW256 3#256 5#256 7#256) down = some ⟨1#1, 0#256⟩ := by decide

/-- Section 2.3, one row: -4294901760. -/
theorem test_wrap_and_sat : wrap32 (-4294901760) = 65536 ∧ sat32 (-4294901760) = -2147483648 := by decide

/-- Section 2.1: the bytes of 0x017fff80 unsigned and signed. -/
theorem test_lane_views :
    (List.range 4).map (u8lane 0x017fff80#256) = [128, 255, 127, 1] ∧
      (List.range 4).map (i8lane 0x017fff80#256) = [-128, -1, 127, 1] := by decide

/-- Section 2.9, MAX_INFLIGHT = 2: after A and B are accepted req_ready = 0, and it returns after one delivery. -/
theorem test_queue_full_then_ready :
    after (runEdges two [offer reqA, offer reqB] up) (fun t => !t.reqReady two) = true ∧
      after (runEdges two [offer reqA, offer reqB, takeEdge two, takeEdge two] up)
        (fun t => t.reqReady two && t.delivered == [⟨0#1, 0#256⟩]) = true := by decide

/-- Section 2.9: A and B are answered in order. -/
theorem test_responses_in_order :
    after (runEdges two (offer reqA :: offer reqB :: List.replicate 4 (takeEdge two)) up)
      (fun t => t.delivered == [⟨0#1, 0#256⟩, ⟨0#1, 0x80000000#256⟩]) = true := by decide

/-- Section 2.9: a reset discards A, and release latches the straps (0, 0). -/
theorem test_reset_discards :
    after (runEdges two [offer reqA, rst, { idle with strapCapSupported := false }] up)
      (fun t => t.q == [] && t.delivered == [] && t.caps == 0#2 && t.reqReady two && !t.rspValid) = true := by decide

/-- Program P1. -/
def p1 : List String :=
  ["    br.nocap NOCAP", "    v0 = i32x4 [0,0,0,0]", "    v1 = u8x16 [1,2,3,4,5,6,7,8,9,10,11,12,13,14,15,16]",
    "    v2 = i8x16 [1,1,1,1,-1,-1,-1,-1,2,2,2,2,-2,-2,-2,-2]", "    v3 = mwadd.b.128 v0, v1, v2",
    "    v3 = mwadd.b.128 v3, v1, v2", "    halt", "NOCAP:", "    halt"]

/-- The status and the value of a name after steps of a program given as text. -/
def finish (lines : List String) (n : Nat) (e : State) (name : String) : Option (HostStatus × Option TypedVec) :=
  match parseProgram (lines.map String.toList) with
  | .ok prog =>
    match runSystem two prog n ⟨HostState.start, e⟩ with
    | .next y => some (y.host.status, lookupName y.host.env name)
    | _ => none
  | .error _ => none

/-- P1: the end state, read from its text and run on the engine. -/
theorem test_p1 : finish p1 14 up "v3" = some (.halted, some ⟨.i32, [20, -52, 168, -232]⟩) := by decide

/-- P3b: the unchecked request faults at line 4 with nothing bound. -/
theorem test_p3b :
    finish ["    v0 = i32x4 [5,0,0,0]", "    v1 = i16x8 [3,4,0,0,0,0,0,0]", "    v2 = i16x8 [2,2,0,0,0,0,0,0]",
      "    v3 = mwadd.w.128 v0, v1, v2", "    halt"] 9 down "v3" = some (.faulted 4, none) := by decide

/-- L1-1 as a value-level call. -/
theorem test_value_call :
    (match Call.run true sampleCall with
      | .next v => v == ⟨.i32, [10, 0, 0, 0]⟩
      | _ => false) = true := by decide

/-- The listing of L1-1: its op field, its left bus and its end. -/
theorem test_listing :
    (Request.listing (Call.request sampleCall)).take 13 = "op=0b000 A=0x".toList ∧
      ((Request.listing (Call.request sampleCall)).drop 77).take 69
        = " L=0x0000000000000000000000000000000000000000000000000000000004030201".toList ∧
      (Request.listing (Call.request sampleCall)).drop 199 = "0000000001010101".toList := by
  decide

/-- A listing with a bad digit is rejected. -/
theorem test_listing_rejected :
    (match Request.parse "op=0b002 A=0x".toList with
      | .error e => e == .badDigit
      | .ok _ => false) = true := by decide

/-! ## Cases that meet the hypotheses of the statements, one theorem for each -/

theorem witness_MwaddB128Result :
    up.capSupported = true ∧ down.capSupported = false := by
  decide

theorem witness_MwaddsB128Result :
    up.capSupported = true ∧ down.capSupported = false := by
  decide

theorem witness_MwaddW128Result :
    up.capSupported = true ∧ down.capSupported = false := by
  decide

theorem witness_MwaddsW128Result :
    up.capSupported = true ∧ down.capSupported = false := by
  decide

theorem witness_MwaddB256Result :
    up.capSupported = true ∧ down.capSupported = false := by
  decide

theorem witness_MwaddsB256Result :
    up.capSupported = true ∧ down.capSupported = false := by
  decide

theorem witness_MwaddW256Result :
    up.capSupported = true ∧ down.capSupported = false := by
  decide

theorem witness_MwaddsW256Result :
    up.capSupported = true ∧ down.capSupported = false := by
  decide

theorem witness_ListingReadsBack :
    (decodeOp reqA.op).width = .w128 ∧ (decodeOp 0b111#3).width = .w256 := by
  decide

theorem witness_WrapAndSaturateFunctions :
    wrap32 2147483648 = -2147483648 ∧ sat32 2147483648 = 2147483647 ∧ sat32 (-2147483649) = -2147483648 ∧
      sat32 (-2147483648) = -2147483648 ∧ sat32 2147483647 = 2147483647 := by
  decide

theorem witness_SaturatingHelperLaws :
    saturatingAddI32 2147483647 0 = 2147483647 ∧ saturatingAddI32 (-2147483648) 0 = -2147483648 := by
  decide

theorem witness_WrappingNeedsNoExactSum :
    (⟨.w256, .word, .wrap⟩ : Op).final = .wrap ∧ 7 < (⟨.w256, .word, .wrap⟩ : Op).width.lanes := by
  decide

theorem witness_SaturatingNeedsTheExactSum :
    (⟨.w128, .word, .sat⟩ : Op).final = .sat ∧ 3 < (⟨.w128, .word, .sat⟩ : Op).width.lanes := by
  decide

theorem witness_WholeDatapath :
    3 < Width.w128.lanes ∧ 7 < Width.w256.lanes := by
  decide

theorem witness_LaneIndependence :
    7 < Width.w256.lanes ∧ (5#256).extractLsb' (32 * 7) 32 = (9#256).extractLsb' (32 * 7) 32 := by
  decide

theorem witness_UpperHalfIgnoredAt128 :
    (decodeOp 0b011#3).width = .w128 ∧
      (0xdeadbeef00000000000000000000000000000001#256).extractLsb' 0 128 = (1#256).extractLsb' 0 128 := by
  decide

theorem witness_OrderIndependence :
    [(1 : Int), 2, 3].Perm (3 :: (List.range 2).map fun k => product (fun j => (j : Int) + 1) (fun _ => 1) (2 * 0 + k)) := by
  decide

theorem witness_SaturatingIsWrappingInRange :
    (∀ i < Width.w128.lanes, -2147483648 ≤ lane32 5#256 i + groupSum 4 (leftLane .byte 2#256) (rightLane .byte 3#256) i ∧
      lane32 5#256 i + groupSum 4 (leftLane .byte 2#256) (rightLane .byte 3#256) i ≤ 2147483647) ∧
      (0#256 = 0#256 ∨ reqB.right = 0#256) ∧ (reqB.left = 0#256 ∨ 0#256 = 0#256) ∧ 7 < (⟨.w256, .word, .sat⟩ : Op).width.lanes := by
  decide

theorem witness_ExecuteGatedRequest :
    down.capSupported = false ∧ up.capSupported = true := by
  decide

theorem witness_CapsConstantBetweenResets :
    up.inReset = false ∧ (∀ e ∈ [offer reqA, takeEdge two], e.rst = false) ∧
      after (runEdges two [offer reqA, takeEdge two] up) (fun _ => true) = true := by
  decide

theorem witness_NoRetryHelps :
    down.inReset = false ∧ down.capSupported = false ∧ (∀ e ∈ [offer reqA, takeEdge two, takeEdge two], e.rst = false) ∧
      after (runEdges two [offer reqA, takeEdge two, takeEdge two] down) (fun t => t.delivered == [⟨1#1, 0#256⟩]) = true := by
  decide

theorem witness_ResetAssertion :
    rst.rst = true ∧ queued.stable rst = true ∧ { queued with held := some reqB }.stable rst = false := by
  decide

theorem witness_ResetRelease :
    (up.assertReset two).inReset = true ∧ (up.assertReset two).q = [] ∧ idle.rst = false ∧
      (up.assertReset two).stable idle = true ∧ up.inReset = false ∧ after (clockEdge two idle up) (fun _ => true) = true := by
  decide

theorem witness_StepKeepsInvariant :
    State.reset.Inv Config.chip ∧ step State.reset = .next State.reset ∧ up.Inv two ∧ after (clockEdge two (offer reqA) up) (fun _ => true) = true := by
  refine ⟨by simp [State.Inv], rfl, by simp [State.Inv, up], by decide⟩

theorem witness_StepRunsTheHeadOfQueue :
    { queued with inputs := [takeEdge two] }.inputs = [takeEdge two] ∧ (takeEdge two).rst = false ∧
      (takeEdge two).rspReady = true ∧ queued.inReset = false ∧ queued.q = [reqA, reqB] ∧ queued.rspWait = 0 ∧
      queued.stable (takeEdge two) = true := by
  decide

theorem witness_EdgeTransfers :
    queued.stable idle = true ∧ (outputsAt two idle queued).rspValid = true := by
  decide

theorem witness_OfferedResponseStable :
    (outputsAt two idle queued).rspValid = true ∧ idle.rspReady = false ∧
      after (clockEdge two idle queued) (fun _ => true) = true ∧ (takeEdge two).rst = false := by
  decide

theorem witness_RequestStabilityDuty :
    after (clockEdge two (offer reqA) queued) (fun t => unstable (clockEdge two idle t) && after (clockEdge two (offer reqA) t) (fun _ => true)) = true ∧
      (outputsAt two (offer reqA) queued).reqReady = false ∧ (outputsAt two (offer reqA) up).reqReady = true ∧
      after (clockEdge two (offer reqA) up) (fun _ => true) = true := by
  decide

theorem witness_ResponsesInRequestOrder :
    up.inReset = false ∧ after (runEdges two [offer reqA, offer reqB, takeEdge two] up) (fun _ => true) = true ∧
      acceptedRequests two [offer reqA, offer reqB, takeEdge two] up = [reqA, reqB] := by
  decide

theorem witness_EdgesRefineAbstractSteps :
    after (clockEdge two (offer reqA) up) (fun t => t.q == [reqA]) = true ∧
      after (clockEdge two (offerEdge two reqB) { queued with q := [reqA] }) (fun t => t.q == [reqB]) = true ∧
      after (clockEdge two rst queued) (fun t => t.q == []) = true ∧
      after (clockEdge two idle (up.assertReset two)) (fun t => !t.inReset) = true := by
  decide

theorem witness_AbstractStepsAreEdges :
    queued.inReset = false ∧ queued.held = none ∧ queued.rspWait = 0 ∧
      ((Move.accept reqA).apply two.maxInflight up.engine).isSome = true ∧
      (Move.deliver.apply two.maxInflight queued.engine).isSome = true := by
  decide

theorem witness_HeadAnsweredAfterItsWait :
    queued.inReset = false ∧ queued.q = [reqA, reqB] ∧ (∀ e ∈ [takeEdge two], e.rst = false ∧ e.rspReady = true) ∧
      [takeEdge two].length = queued.rspWait + 1 ∧ after (runEdges two [takeEdge two] queued) (fun _ => true) = true := by
  decide

theorem witness_EveryRequestAnswered :
    queued.inReset = false ∧ (∀ e ∈ List.replicate 3 (takeEdge two), e.rst = false ∧ e.rspReady = true) ∧
      after (runEdges two (List.replicate 3 (takeEdge two)) queued) (fun t => t.delivered == queued.owed) = true := by
  decide

theorem witness_Backpressure :
    queued.inReset = false ∧ (∀ e ∈ [offer reqA], e.rst = false ∧ e.rspReady = false) ∧
      after (runEdges two [offer reqA] queued) (fun _ => true) = true ∧ two.maxInflight ≤ queued.q.length := by
  decide

theorem witness_OfferedWhileReadyIsAccepted :
    up.stable (offer reqA) = true ∧ (offer reqA).reqValid = true ∧ (outputsAt two (offer reqA) up).reqReady = true := by
  decide

theorem witness_ValueCallOutcomes :
    sampleCall.wf = true ∧ { sampleCall with addend := ⟨.i32, [0, 0, 0]⟩ }.countsOk = false ∧
      { sampleCall with addend := ⟨.i32, [0, 0, 0, 2147483648]⟩ }.countsOk = true ∧
      { sampleCall with addend := ⟨.i32, [0, 0, 0, 2147483648]⟩ }.rangesOk = false ∧
      { sampleCall with addend := ⟨.u8, [0, 0, 0, 0]⟩ }.countsOk = true ∧
      { sampleCall with addend := ⟨.u8, [0, 0, 0, 0]⟩ }.rangesOk = true ∧
      { sampleCall with addend := ⟨.u8, [0, 0, 0, 0]⟩ }.typesOk = false := by
  decide

theorem witness_BusMeetsValueLevel :
    sampleCall.wf = true ∧ { sampleCall with op := ⟨.w128, .byte, .sat⟩ }.wf = true := by
  decide

/-- A running host whose line issues the sample call. -/
def issuing (e : State) : System :=
  ⟨⟨[("a", sampleCall.addend), ("l", sampleCall.left), ("r", sampleCall.right)], 0, .running, .idle⟩, e⟩

/-- A program of each line that issues no request, and one that does; the last lines name a label and a value that
there are not. -/
def lines : Program :=
  [.stmt (.issue "d" sampleCall.op "a" "l" "r"), .label "x", .stmt (.literal "v" .i32x4 [1, 2, 3, 4]),
    .stmt (.brNocap "x"), .stmt (.br "x"), .stmt .halt, .stmt (.brNocap "y"), .stmt (.br "y"),
    .stmt (.issue "d" sampleCall.op "a" "l" "z")]

/-- The sample host at another line. -/
def atLine (k : Nat) : HostState := { (issuing up).host with line := k }

theorem witness_HostLinesWithoutARequest :
    (atLine 2).status = .running ∧ (atLine 2).phase = .idle ∧
      lines[1]? = some (.label "x") ∧ (∀ j < 1, lines[j]? ≠ some (.label "x")) ∧
      lines[(atLine 2).line]? = some (.stmt (.literal "v" .i32x4 [1, 2, 3, 4])) ∧
      lines[(atLine 3).line]? = some (.stmt (.brNocap "x")) ∧ lines[(atLine 4).line]? = some (.stmt (.br "x")) ∧
      lines[(atLine 1).line]? = some (.label "x") ∧ lines[(atLine 5).line]? = some (.stmt .halt) ∧
      lines[(atLine 6).line]? = some (.stmt (.brNocap "y")) ∧ lines[(atLine 7).line]? = some (.stmt (.br "y")) ∧
      lines[(atLine 9).line]? = none := by
  decide

theorem witness_HostLinesWithoutARequest_unknown : ∀ k : Nat, lines[k]? ≠ some (.label "y") :=
  fun _ h => absurd (List.mem_of_getElem? h) (by decide)

theorem witness_HostIssueMeetsValueLevel :
    lines[(atLine 0).line]? = some (.stmt (.issue "d" sampleCall.op "a" "l" "r")) ∧
      (atLine 0).status = .running ∧ (atLine 0).phase = .idle ∧
      lookupName (atLine 0).env "a" = some sampleCall.addend ∧ lookupName (atLine 0).env "l" = some sampleCall.left ∧
      lookupName (atLine 0).env "r" = some sampleCall.right ∧ sampleCall.wf = true ∧
      queued.inReset = false ∧ queued.held = none ∧ down.inReset = false ∧ down.held = none ∧
      { up with held := some (Call.request sampleCall) }.held = some (Call.request sampleCall) ∧
      queued.capSupported = true ∧ down.capSupported = false := by
  decide

/-- An issue line on an engine with A and B in a full Q: its response comes after theirs. -/
theorem test_issue_behind_queue :
    (match runSystem two lines 6 (issuing queued) with
      | .next y => y.engine.delivered.length == 3 && y.host.line == 1
          && lookupName y.host.env "d" == some ⟨.i32, [10, 0, 0, 0]⟩
      | _ => false) = true := by decide

theorem witness_HostIssueChecksTypes :
    lines[(atLine 0).line]? = some (.stmt (.issue "d" sampleCall.op "a" "l" "r")) ∧
      (atLine 0).status = .running ∧ (atLine 0).phase = .idle ∧
      lookupName (atLine 0).env "a" = some sampleCall.addend ∧ lookupName (atLine 0).env "l" = some sampleCall.left ∧
      lookupName (atLine 0).env "r" = some sampleCall.right ∧
      lines[(atLine 8).line]? = some (.stmt (.issue "d" sampleCall.op "a" "l" "z")) ∧
      lookupName (atLine 8).env "z" = none := by
  decide

theorem witness_HostLinesReadBack :
    isName "v0" = true ∧ isName "_" = true ∧ isName "halt" = true ∧ isName "NOCAP" = true := by
  decide

theorem witness_HostLiteralReadsBack : isName "v0" = true ∧ [(-2147483648 : Int), 0, 2147483647] ≠ [] := by
  decide

end Sys2Proof.Tests
end

