-- ==== Sys2Proof/Proofs/Scope.lean ====
section
/-! PROOFS. The two 32-bit functions of rule R10: `wrap32` is determined by its range and its residue class, and
`sat32` is the clamp. -/

namespace Sys2Proof.Machine

/-- Two i32 values in one residue class modulo 2^32 are the same: they differ by a multiple of 2^32 that is smaller
than 2^32. -/
theorem i32_eq_of_emod_eq {y z : Int} (hy : int32Min ≤ y) (hy' : y ≤ int32Max) (hz : int32Min ≤ z)
    (hz' : z ≤ int32Max) (h : y % 4294967296 = z % 4294967296) : y = z := by
  unfold int32Min int32Max at *
  omega

/-- The uniqueness half of rule R10. -/
theorem eq_wrap32_of_range_of_congr {x y : Int} (hlo : int32Min ≤ y) (hhi : y ≤ int32Max)
    (hc : (y - x) % 4294967296 = 0) : y = wrap32 x := by
  obtain ⟨wlo, whi, wc⟩ := wrap32_spec x
  have hyx : y % 4294967296 = x % 4294967296 := Int.emod_eq_emod_iff_emod_sub_eq_zero.mpr hc
  have hwx : wrap32 x % 4294967296 = x % 4294967296 := Int.emod_eq_emod_iff_emod_sub_eq_zero.mpr wc
  exact i32_eq_of_emod_eq hlo hhi wlo whi (hyx.trans hwx.symm)

/-- `sat32` clamps from above (rule R10). -/
theorem sat32_of_int32Max_lt {x : Int} (h : int32Max < x) : sat32 x = int32Max := if_pos h

/-- `sat32` clamps from below (rule R10). -/
theorem sat32_of_lt_int32Min {x : Int} (h : x < int32Min) : sat32 x = int32Min := by
  have hle : ¬ x > int32Max := by
    unfold int32Min int32Max at *
    omega
  rw [sat32, if_neg hle, if_pos h]

/-- Settles O16: `wrap32_spec` with the uniqueness of the i32 in a residue class, and the three cases of the clamp. -/
theorem wrapAndSaturateFunctions : Obligations.WrapAndSaturateFunctions := fun x =>
  ⟨wrap32_spec x, fun _ => eq_wrap32_of_range_of_congr, sat32_of_int32Max_lt, sat32_of_lt_int32Min, sat32_of_range⟩

end Sys2Proof.Machine
end

