-- ==== Sys2Proof/Proofs/State.lean ====
section
/-! PROOFS. The state of the engine (10_state.md): the state right after reset, the invariant every edge and every step
keeps, and the input bits an operation reads. -/

namespace Sys2Proof.Machine

/-! ## The invariant (rules R24, R30, R130) -/

/-- `req_ready` = 1 says that reset is not asserted and that Q has room (rule R70). -/
theorem State.reqReady_iff (p : Params) (s : State) :
    s.reqReady p = true ↔ s.inReset = false ∧ s.q.length < p.maxInflight := by
  simp [State.reqReady]

/-- A request is accepted exactly when it is offered to a ready engine (rule R70). -/
theorem State.accepts_iff (p : Params) (inp : PortIn) (s : State) :
    s.accepts p inp = true ↔ inp.reqValid = true ∧ s.inReset = false ∧ s.q.length < p.maxInflight := by
  rw [State.accepts, Bool.and_eq_true, State.reqReady_iff]

/-- An edge never overfills Q: it appends a request only where Q had room before (rules R24, R70). -/
theorem State.nextQ_length_le {p : Params} {s : State} (inp : PortIn) (d : Bool)
    (h : s.q.length ≤ p.maxInflight) : (s.nextQ p inp d).length ≤ p.maxInflight := by
  have hkept : (if d then s.q.tail else s.q).length ≤ s.q.length := by cases d <;> simp
  rw [State.nextQ, List.length_append]
  cases ha : s.accepts p inp with
  | false => simpa using hkept.trans h
  | true =>
    obtain ⟨-, -, hroom⟩ := (s.accepts_iff p inp).1 ha
    simp only [if_true, List.length_singleton]
    omega

/-- Nothing is accepted in reset (rules R30, R70), so an empty Q stays empty there. -/
theorem State.nextQ_of_inReset (p : Params) {s : State} (inp : PortIn) (d : Bool) (hr : s.inReset = true)
    (hq : s.q = []) : s.nextQ p inp d = [] := by
  have ha : s.accepts p inp = false := by
    rw [State.accepts, State.reqReady, hr]
    simp
  cases d <;> simp [State.nextQ, ha, hq]

/-- No wait is left at an edge that leaves Q empty. -/
theorem State.nextWait_of_nextQ_nil {p : Params} {inp : PortIn} {d : Bool} {s : State}
    (h : s.nextQ p inp d = []) : s.nextWait p inp d = 0 := by
  simp [State.nextWait, h]

/-- The level of `rst` keeps the invariant: assertion empties Q and ends the wait, release and no change leave both. -/
theorem State.Inv.settle {p : Params} {s : State} (inp : PortIn) (h : s.Inv p) : (s.settle p inp).Inv p := by
  obtain ⟨hlen, -, hwait⟩ := h
  cases hrst : inp.rst with
  | true =>
    rw [State.settle_rst hrst]
    exact ⟨Nat.zero_le _, fun _ => rfl, fun _ => rfl⟩
  | false =>
    cases hr : s.inReset with
    | true =>
      rw [State.settle_release hrst hr]
      exact ⟨hlen, by simp, hwait⟩
    | false =>
      rw [State.settle_running hrst hr]
      exact ⟨hlen, by simp [hr], hwait⟩

/-- The transfers of an edge keep the invariant, whether or not a response is delivered. -/
theorem State.Inv.endEdge {p : Params} {s : State} (inp : PortIn) (d : Bool) (h : s.Inv p) :
    (s.endEdge p inp d).Inv p := by
  obtain ⟨hlen, hreset, -⟩ := h
  exact ⟨State.nextQ_length_le inp d hlen, fun hr => State.nextQ_of_inReset p inp d hr (hreset hr),
    State.nextWait_of_nextQ_nil⟩

/-- One clock edge keeps the invariant: the level of `rst` does, and then the transfers do. -/
theorem State.Inv.clockEdge {p : Params} {inp : PortIn} {s t : State} (h : s.Inv p)
    (ht : clockEdge p inp s = .next t) : t.Inv p := by
  obtain ⟨-, hr, hq, hw, -⟩ := clockEdge_fields ht
  rw [State.Inv, hr, hq, hw]
  exact (h.settle inp).endEdge inp _

/-- One step keeps the invariant: it changes nothing or is one clock edge, and the levels to come are no part of the
invariant. -/
theorem State.Inv.step {s t : State} (h : s.Inv Config.chip) (ht : step s = .next t) : t.Inv Config.chip := by
  cases hin : s.inputs with
  | nil =>
    rw [step_idle hin] at ht
    cases ht
    exact h
  | cons inp rest =>
    rw [step_edge hin] at ht
    exact State.Inv.clockEdge (s := { s with inputs := rest }) h ht

/-- Settles O35: a step is at most one edge, and an edge is the level of `rst` followed by the transfers, each of which
keeps the invariant. -/
theorem stepKeepsInvariant : Obligations.StepKeepsInvariant :=
  ⟨fun _ _ => State.Inv.step, fun _ _ _ _ => State.Inv.clockEdge⟩

/-! ## The input bits an operation reads (rule R29) -/

/-- Buses that agree on their low n bits agree on every slice of those bits. -/
theorem extractLsb'_congr_of_low {b b' : Bus} {n i w : Nat} (h : b.extractLsb' 0 n = b'.extractLsb' 0 n)
    (hn : i + w ≤ n) : b.extractLsb' i w = b'.extractLsb' i w := by
  have hslice (c : Bus) : (c.extractLsb' 0 n).extractLsb' i w = c.extractLsb' i w := by
    ext k hk
    have hin : i + k < n := by omega
    simp [hin]
  rw [← hslice b, h, hslice b']

/-- The narrow elements of the first N lanes are read from the low 32N bits: G of 8 bits or G of 16 bits fill a lane
(rules R63, R86). -/
theorem narrowLanes_congr_of_low (o : Op) {b b' : Bus} {n k : Nat} (h : b.extractLsb' 0 n = b'.extractLsb' 0 n)
    (hn : 32 * o.width.lanes ≤ n) (hk : k < o.narrowCount) :
    leftLane o.source b k = leftLane o.source b' k ∧ rightLane o.source b k = rightLane o.source b' k := by
  unfold Op.narrowCount at hk
  cases hs : o.source <;> simp only [hs, Source.group] at hk
  case byte =>
    have hbyte := extractLsb'_congr_of_low h (show 8 * k + 8 ≤ n by omega)
    simp only [leftLane, rightLane, u8lane, i8lane, hbyte, and_self]
  case word =>
    have hword := extractLsb'_congr_of_low h (show 16 * k + 16 ≤ n by omega)
    simp only [leftLane, rightLane, i16lane, hword, and_self]

/-- The datapath reads only the low 32N bits of each operand: N addend lanes, and G·N narrow elements that together are
as wide (rules R29, R85). -/
theorem wma_congr_of_low (o : Op) {a a' l l' r r' : Bus} {n : Nat} (hn : 32 * o.width.lanes ≤ n)
    (ha : a.extractLsb' 0 n = a'.extractLsb' 0 n) (hl : l.extractLsb' 0 n = l'.extractLsb' 0 n)
    (hr : r.extractLsb' 0 n = r'.extractLsb' 0 n) : wma o a l r = wma o a' l' r' := by
  have haddend : ∀ i < o.width.lanes, lane32 a i = lane32 a' i := fun i hi => by
    rw [lane32, lane32, extractLsb'_congr_of_low ha (by omega)]
  rw [wma, wma, resultLanes_congr o haddend (fun _ hk => (narrowLanes_congr_of_low o hl hn hk).1)
    (fun _ hk => (narrowLanes_congr_of_low o hr hn hk).2)]

/-- Settles O24: with CAPS.SUPPORTED = 0 the response is one constant, whose result is 0; with CAPS.SUPPORTED = 1 it is
the datapath's, which at N = 4 reads bits [127:0] alone and leaves the bits above its lanes 0. -/
theorem upperHalfIgnoredAt128 : Obligations.UpperHalfIgnoredAt128 := by
  intro c op a l r a' l' r' hw ha hl hr
  cases c with
  | false => exact ⟨rfl, show (0#256).extractLsb' 128 128 = 0#128 by decide⟩
  | true =>
    have hlow : wma (decodeOp op) a l r = wma (decodeOp op) a' l' r' :=
      wma_congr_of_low _ (by rw [hw]; decide) ha hl hr
    have hhigh := wma_above (decodeOp op) a l r 128
    rw [hw] at hhigh
    exact ⟨congrArg (Response.mk statusOk) hlow, hhigh⟩

/-! ## The state right after reset (rules R30, R131) -/

/-- Settles O32: CAPS was loaded from the straps, and Q, which is empty, has room for at least one request. -/
theorem resetStateIsReleased : Obligations.ResetStateIsReleased := by
  have hready : State.reset.reqReady Config.chip = true :=
    (State.reqReady_iff _ _).2 ⟨State.reset_inReset, Nat.succ_pos _⟩
  exact ⟨State.reset_inReset, State.reset_q, capsWord_supported _ _, capsWord_x64 _ _, hready, rfl⟩

/-- Settles O36: Q is empty, which meets the bound, and the wait starts at 0. -/
theorem resetStateHasInvariant : Obligations.ResetStateHasInvariant :=
  ⟨Nat.zero_le _, fun _ => State.reset_q, fun _ => State.reset_rspWait⟩

end Sys2Proof.Machine
end

