-- ==== Sys2Proof/Proofs/Memory.lean ====
section
/-! PROOFS. One response for each accepted request, in the order of acceptance (20_memory.md rules R43 and R45): an
edge moves the head's response from those owed to those delivered, and adds the accepted request's at the end. -/

namespace Sys2Proof.Machine

/-! ## One edge that leaves reset released -/

/-- A response is delivered only for a head of Q, and it is that head's F (rules R43, R70). -/
theorem State.delivers_head {inp : PortIn} {s : State} (p : Params) (h : s.delivers inp = true) :
    ∃ r rest, s.q = r :: rest ∧ s.rspData p = response s.capSupported r := by
  obtain ⟨hvalid, -⟩ := Bool.and_eq_true_iff.1 h
  obtain ⟨-, ⟨r, rest, hq⟩, -⟩ := s.rspValid_iff.1 hvalid
  exact ⟨r, rest, hq, State.rspData_of_valid p hvalid hq⟩

/-- With reset released before and at the edge, `clockEdge_fields` speaks of the state itself: CAPS and the reset level
stay, and only the transfers change Q and what was delivered. -/
theorem clockEdge_running_fields {p : Params} {inp : PortIn} {s t : State} (hr : s.inReset = false)
    (hrst : inp.rst = false) (h : clockEdge p inp s = .next t) :
    t.capSupported = s.capSupported ∧ t.inReset = false ∧ t.q = s.nextQ p inp (s.delivers inp) ∧
      t.delivered = s.delivered ++ (if s.delivers inp then [s.rspData p] else []) := by
  obtain ⟨hcaps, hreset, hq, -, -, -, -, hdel⟩ := clockEdge_fields h
  rw [State.settle_running hrst hr] at hcaps hreset hq hdel
  exact ⟨by rw [State.capSupported, State.capSupported, hcaps], hreset.trans hr, hq, hdel⟩

/-- What an edge delivers, followed by what is owed to the requests it leaves in Q, is what was owed before it: a
delivery only moves the head's response across. -/
theorem State.delivered_append_kept_owed (p : Params) (inp : PortIn) (s : State) :
    (if s.delivers inp then [s.rspData p] else []) ++
      (if s.delivers inp then s.q.tail else s.q).map (response s.capSupported) = s.owed := by
  cases hd : s.delivers inp with
  | false => rfl
  | true =>
    obtain ⟨r, rest, hq, hrsp⟩ := State.delivers_head p hd
    simp [State.owed, hq, hrsp]

/-- One edge conserves the responses delivered and owed, but for the response of a request it accepts, which comes
last. -/
theorem clockEdge_delivered_append_owed {p : Params} {inp : PortIn} {s t : State} (hr : s.inReset = false)
    (hrst : inp.rst = false) (h : clockEdge p inp s = .next t) :
    t.delivered ++ t.owed = s.delivered ++ s.owed ++
      (if s.accepts p inp then [inp.req] else []).map (response s.capSupported) := by
  obtain ⟨hcap, -, hq, hdel⟩ := clockEdge_running_fields hr hrst h
  rw [← State.delivered_append_kept_owed p inp s, State.owed, hcap, hq, hdel, State.nextQ, List.map_append]
  simp only [List.append_assoc]

/-! ## Runs of edges -/

/-- A run that answers a state answered one at its first edge. -/
theorem runEdges_cons_next {p : Params} {inp : PortIn} {es : List PortIn} {s t : State}
    (h : runEdges p (inp :: es) s = .next t) :
    ∃ u : State, clockEdge p inp s = .next u ∧ runEdges p es u = .next t := by
  rw [runEdges] at h
  cases hu : clockEdge p inp s with
  | next u => exact ⟨u, rfl, by simpa only [hu] using h⟩
  | fault f => simp [hu] at h
  | refused w => simp [hu] at h

/-- The requests a run accepts are that of its first edge, if any, and then those of the rest. -/
theorem acceptedRequests_cons {p : Params} {inp : PortIn} {s u : State} (es : List PortIn)
    (h : clockEdge p inp s = .next u) :
    acceptedRequests p (inp :: es) s = (if s.accepts p inp then [inp.req] else []) ++ acceptedRequests p es u := by
  rw [acceptedRequests, h]

/-- Settles O43, by induction on the edges: each appends the response of the request it accepts, and keeps CAPS, on
which F depends. -/
theorem responsesInRequestOrder : Obligations.ResponsesInRequestOrder := by
  intro p es
  induction es with
  | nil =>
    rintro s t - - hrun
    cases hrun
    simp [acceptedRequests]
  | cons inp es ih =>
    intro s t hr hrst hrun
    obtain ⟨hinp, hes⟩ := List.forall_mem_cons.1 hrst
    obtain ⟨u, hedge, hrest⟩ := runEdges_cons_next hrun
    obtain ⟨hcap, hr', -, -⟩ := clockEdge_running_fields hr hinp hedge
    calc t.delivered ++ t.owed
        = u.delivered ++ u.owed ++ (acceptedRequests p es u).map (response u.capSupported) := ih u t hr' hes hrest
      _ = s.delivered ++ s.owed ++ (if s.accepts p inp then [inp.req] else []).map (response s.capSupported) ++
            (acceptedRequests p es u).map (response s.capSupported) := by
          rw [clockEdge_delivered_append_owed hr hinp hedge, hcap]
      _ = s.delivered ++ s.owed ++ (acceptedRequests p (inp :: es) s).map (response s.capSupported) := by
          rw [acceptedRequests_cons es hedge, List.map_append, List.append_assoc]

end Sys2Proof.Machine
end

section
/-! PROOFS. The encoding of requests and responses (30_encoding.md): their words (R60 to R65), the port's transfers and
their abstract steps (R70), host programs and their text (R66 to R68), and the listings (R69). -/

namespace Sys2Proof

/-! ## The request word and the response word (rule R60) -/

@[simp] theorem Request.toBits_op (r : Request) : r.toBits.extractLsb' 768 3 = r.op := by
  simp only [Request.toBits]
  rw [BitVec.extractLsb'_append_eq_of_le (by decide), BitVec.extractLsb'_append_eq_of_le (by decide)]
  exact BitVec.extractLsb'_append_eq_left

@[simp] theorem Request.toBits_addend (r : Request) : r.toBits.extractLsb' 512 256 = r.addend := by
  simp only [Request.toBits]
  rw [BitVec.extractLsb'_append_eq_of_le (by decide), BitVec.extractLsb'_append_eq_of_le (by decide)]
  exact BitVec.extractLsb'_append_eq_right

@[simp] theorem Request.toBits_left (r : Request) : r.toBits.extractLsb' 256 256 = r.left := by
  simp only [Request.toBits]
  rw [BitVec.extractLsb'_append_eq_of_le (by decide)]
  exact BitVec.extractLsb'_append_eq_right

@[simp] theorem Request.toBits_right (r : Request) : r.toBits.extractLsb' 0 256 = r.right :=
  BitVec.extractLsb'_append_eq_right

/-- Reading the fields of a request's word gives the request. -/
@[simp] theorem Request.ofBits_toBits (r : Request) : Request.ofBits r.toBits = r := by
  simp only [Request.ofBits, Request.toBits_op, Request.toBits_addend, Request.toBits_left, Request.toBits_right]

/-- The four fields cover the word: writing the fields of a word gives the word. -/
@[simp] theorem Request.toBits_ofBits (w : BitVec 771) : (Request.ofBits w).toBits = w := by
  have hleft : w.extractLsb' 768 3 ++ w.extractLsb' 512 256 = w.extractLsb' 512 259 :=
    BitVec.extractLsb'_append_extractLsb'_eq_extractLsb' rfl
  have hright : w.extractLsb' 512 259 ++ w.extractLsb' 256 256 = w.extractLsb' 256 515 :=
    BitVec.extractLsb'_append_extractLsb'_eq_extractLsb' rfl
  have hall : w.extractLsb' 256 515 ++ w.extractLsb' 0 256 = w.extractLsb' 0 771 :=
    BitVec.extractLsb'_append_extractLsb'_eq_extractLsb' rfl
  calc (Request.ofBits w).toBits
      = w.extractLsb' 768 3 ++ w.extractLsb' 512 256 ++ w.extractLsb' 256 256 ++ w.extractLsb' 0 256 := rfl
    _ = w.extractLsb' 0 771 := by rw [hleft, hright, hall]
    _ = w := BitVec.extractLsb'_eq_self

@[simp] theorem Response.toBits_status (r : Response) : r.toBits.extractLsb' 256 1 = r.status :=
  BitVec.extractLsb'_append_eq_left

@[simp] theorem Response.toBits_result (r : Response) : r.toBits.extractLsb' 0 256 = r.result :=
  BitVec.extractLsb'_append_eq_right

/-- Reading the fields of a response's word gives the response. -/
@[simp] theorem Response.ofBits_toBits (r : Response) : Response.ofBits r.toBits = r := by
  simp only [Response.ofBits, Response.toBits_status, Response.toBits_result]

/-- Settles O5: each field is a part of a concatenation whose widths put it at the bits of rule R60. -/
theorem requestAndResponseFields : Obligations.RequestAndResponseFields :=
  ⟨fun r => ⟨r.toBits_op, r.toBits_addend, r.toBits_left, r.toBits_right, r.ofBits_toBits⟩,
    fun r => ⟨r.toBits_status, r.toBits_result, r.ofBits_toBits⟩⟩

/-! ## The op field and the opcode map (rules R61, R62) -/

/-- The three bits of rule R61 determine the op field. -/
@[simp] theorem encodeOp_decodeOp (op : BitVec 3) : encodeOp (decodeOp op) = op := by
  revert op
  decide

/-- The op field determines the tuple of rule R61. -/
@[simp] theorem decodeOp_encodeOp (o : Op) : decodeOp (encodeOp o) = o := by
  obtain ⟨w, s, t⟩ := o
  cases w <;> cases s <;> cases t <;> rfl

/-- Settles O3: `decodeOp` reads the three bits one by one, and it and `encodeOp` undo each other. -/
theorem opFieldIsThreeBits : Obligations.OpFieldIsThreeBits :=
  ⟨fun op => ⟨rfl, rfl, rfl, encodeOp_decodeOp op⟩, decodeOp_encodeOp⟩

/-! ## Decoding and encoding undo each other (rules R62, R64, R65) -/

/-- The op value of an instruction's row names the instruction's own tuple (rules R61, R62). -/
theorem decodeOp_encode_op (i : Instr) : decodeOp (encode i).op = i.op := by
  cases i with
  | mwaddB128 a l r => exact Laws.EncodesOp.mwaddB128 a l r
  | mwaddsB128 a l r => exact Laws.EncodesOp.mwaddsB128 a l r
  | mwaddW128 a l r => exact Laws.EncodesOp.mwaddW128 a l r
  | mwaddsW128 a l r => exact Laws.EncodesOp.mwaddsW128 a l r
  | mwaddB256 a l r => exact Laws.EncodesOp.mwaddB256 a l r
  | mwaddsB256 a l r => exact Laws.EncodesOp.mwaddsB256 a l r
  | mwaddW256 a l r => exact Laws.EncodesOp.mwaddW256 a l r
  | mwaddsW256 a l r => exact Laws.EncodesOp.mwaddsW256 a l r

/-- The opcode map writes the op field of the instruction's own tuple (rules R61, R62). -/
theorem encode_op (i : Instr) : (encode i).op = encodeOp i.op := by
  rw [← decodeOp_encode_op, encodeOp_decodeOp]

/-- An instruction's request names the instruction's row, with the operand buses in their places. -/
@[simp] theorem decode_encode (i : Instr) : decode (encode i) = i := by
  rw [decode, decodeOp_encode_op]
  cases i <;> rfl

/-- Decoding moves the operand buses to their places in the instruction, and encoding moves them back. -/
theorem encode_decode_buses (r : Request) : (encode (decode r)).addend = r.addend ∧
    (encode (decode r)).left = r.left ∧ (encode (decode r)).right = r.right := by
  unfold decode
  split <;> exact ⟨rfl, rfl, rfl⟩

/-- The instruction of a request keeps all of its fields: the tuple stands for the op field. -/
@[simp] theorem encode_decode (r : Request) : encode (decode r) = r := by
  have hop : (encode (decode r)).op = r.op := by rw [encode_op, Machine.decode_op, encodeOp_decodeOp]
  obtain ⟨ha, hl, hr⟩ := encode_decode_buses r
  calc encode (decode r)
      = ⟨(encode (decode r)).op, (encode (decode r)).addend, (encode (decode r)).left, (encode (decode r)).right⟩ := rfl
    _ = r := by rw [hop, ha, hl, hr]

/-- A request's word decodes as the request does. -/
theorem decodeWord_toBits (r : Request) : decodeWord r.toBits = decode r := by
  rw [decodeWord, Request.ofBits_toBits]

/-- Settles O4: each op value is the one encoding gives its row, and decoding undoes encoding; the tuples and the
mnemonics are those of the row. -/
theorem opcodeMap : Obligations.OpcodeMap := by
  intro a l r
  refine ⟨decode_encode (.mwaddB128 a l r), decode_encode (.mwaddsB128 a l r), decode_encode (.mwaddW128 a l r),
    decode_encode (.mwaddsW128 a l r), decode_encode (.mwaddB256 a l r), decode_encode (.mwaddsB256 a l r),
    decode_encode (.mwaddW256 a l r), decode_encode (.mwaddsW256 a l r), rfl, rfl, rfl, rfl, rfl, rfl, rfl, rfl, ?_⟩
  simp [Op.mnemonic, Instr.op]

/-- Settles O1: through the request, and through its word, whose fields are read back. -/
theorem decodeEncodeAgree : Obligations.DecodeEncodeAgree :=
  ⟨decode_encode, fun i => (decodeWord_toBits (encode i)).trans (decode_encode i)⟩

/-- Settles O2: no field of a request is lost in its instruction, and no bit of a word is outside the four fields. -/
theorem encodeDecodeAgree : Obligations.EncodeDecodeAgree :=
  ⟨encode_decode, fun w => by rw [encodeWord, decodeWord, encode_decode, Request.toBits_ofBits]⟩

/-- Settles O7: each word is that of a request of its four fields, whose op value names the row. -/
theorem decodeSanityWords : Obligations.DecodeSanityWords :=
  ⟨decodeWord_toBits ⟨0b000#3, _, _, _⟩, decodeWord_toBits ⟨0b011#3, _, _, _⟩, decodeWord_toBits ⟨0b100#3, _, _, _⟩,
    decodeWord_toBits ⟨0b111#3, _, _, _⟩⟩

end Sys2Proof

namespace Sys2Proof

open Machine

/-! ## Listings (rule R69) -/

/-- Fixed text is taken off the front of what begins with it. -/
@[simp] theorem takeText_append (cs rest : List Char) : takeText cs (cs ++ rest) = .ok rest := by
  induction cs with
  | nil => rfl
  | cons c cs ih => simpa [takeText] using ih

/-- The two functions on hexadecimal digits agree. -/
theorem hexValue_hexDigit {n : Nat} (h : n < 16) : hexValue (hexDigit n) = some n := by
  revert n
  decide

/-- The n digits written for v are read onto what has been read before as n digits of v's value. -/
theorem takeDigits_hexDigits (n v acc : Nat) (rest : List Char) :
    takeDigits hexValue 16 n acc (hexDigits n v ++ rest) = .ok (acc * 16 ^ n + v % 16 ^ n, rest) := by
  induction n generalizing acc with
  | zero => simp [takeDigits, hexDigits, Nat.mod_one]
  | succ n ih =>
    have hdigit : hexValue (hexDigit (v / 16 ^ n % 16)) = some (v / 16 ^ n % 16) :=
      hexValue_hexDigit (Nat.mod_lt _ (by decide))
    have hvalue : (acc * 16 + v / 16 ^ n % 16) * 16 ^ n + v % 16 ^ n = acc * 16 ^ (n + 1) + v % 16 ^ (n + 1) := by
      rw [Nat.pow_succ, Nat.mod_mul]
      ring
    simp only [hexDigits, List.cons_append, takeDigits, hdigit, ih, hvalue]

/-- A bus is read back off the front of a listing: 64 hexadecimal digits hold its 256 bits. -/
@[simp] theorem Bus.takeListing_listing (b : Bus) (rest : List Char) :
    Bus.takeListing (Bus.listing b ++ rest) = .ok (b, rest) := by
  have hb : 0 * 16 ^ 64 + b.toNat % 16 ^ 64 = b.toNat := by
    rw [Nat.zero_mul, Nat.zero_add]
    exact Nat.mod_eq_of_lt b.isLt
  rw [Bus.takeListing, Bus.listing, List.append_assoc, takeText_append]
  simp only [bind, Except.bind, takeDigits_hexDigits, hb, BitVec.ofNat_toNat, BitVec.setWidth_eq, pure, Except.pure]

/-- The two functions on binary digits agree. -/
@[simp] theorem binValue_bitChar (b : Bool) : binValue (bitChar b) = some b.toNat := by
  cases b <;> rfl

/-- Three binary digits, most significant first, name a 3-bit value. -/
theorem ofNat_bits_three (op : BitVec 3) :
    BitVec.ofNat 3 (((0 * 2 + (op.getLsbD 2).toNat) * 2 + (op.getLsbD 1).toNat) * 2 + (op.getLsbD 0).toNat) = op := by
  revert op
  decide

/-- A binary digit names a 1-bit value. -/
theorem ofNat_bit_one (st : BitVec 1) : BitVec.ofNat 1 (0 * 2 + (st.getLsbD 0).toNat) = st := by
  revert st
  decide

/-- The op field is read back off the front of a listing. -/
theorem takeDigits_op (op : BitVec 3) (rest : List Char) :
    takeDigits binValue 2 3 0
      ([bitChar (op.getLsbD 2), bitChar (op.getLsbD 1), bitChar (op.getLsbD 0)] ++ rest) =
      .ok (((0 * 2 + (op.getLsbD 2).toNat) * 2 + (op.getLsbD 1).toNat) * 2 + (op.getLsbD 0).toNat, rest) := by
  simp only [List.cons_append, List.nil_append, takeDigits, binValue_bitChar]

/-- The status bit is read back off the front of a listing. -/
theorem takeDigits_status (st : BitVec 1) (rest : List Char) :
    takeDigits binValue 2 1 0 ([bitChar (st.getLsbD 0)] ++ rest) = .ok (0 * 2 + (st.getLsbD 0).toNat, rest) := by
  simp only [List.cons_append, List.nil_append, takeDigits, binValue_bitChar]

/-- The last bus is read back up to the end of the text. -/
theorem Bus.takeListing_listing_end (b : Bus) : Bus.takeListing (Bus.listing b) = .ok (b, []) := by
  simpa using Bus.takeListing_listing b []

/-- The four fields of a request's text are read back one after another. -/
theorem Request.parse_text (r : Request) : Request.parse r.text = .ok r := by
  unfold Request.text
  simp only [Request.parse, List.append_assoc, bind, Except.bind, takeText_append, takeDigits_op,
    Bus.takeListing_listing, Bus.takeListing_listing_end, endText, ofNat_bits_three, pure, Except.pure]

/-- The two fields of a response's text are read back one after the other. -/
theorem Response.parse_listing (r : Response) : Response.parse r.listing = .ok r := by
  unfold Response.listing
  simp only [Response.parse, List.append_assoc, bind, Except.bind, takeText_append, takeDigits_status,
    Bus.takeListing_listing_end, endText, ofNat_bit_one, pure, Except.pure]

theorem Request.listed_of_w256 {r : Request} (h : (decodeOp r.op).width = .w256) : r.listed = r := by
  rw [Request.listed, h]

theorem Request.listed_of_w128 {r : Request} (h : (decodeOp r.op).width = .w128) :
    r.listed = ⟨r.op, lowHalf r.addend, lowHalf r.left, lowHalf r.right⟩ := by
  rw [Request.listed, h]

/-- Settles O6: a listing is the text of the request as listed, and each field of a text is read back in its turn. -/
theorem listingReadsBack : Obligations.ListingReadsBack :=
  ⟨fun r => r.listed.parse_text, fun _ => Request.listed_of_w256, fun _ => Request.listed_of_w128,
    Response.parse_listing⟩

end Sys2Proof

namespace Sys2Proof.Machine

/-! ## The transfers of one clock edge (rule R70) -/

/-- A clock edge at which the host keeps its offer answers a next state (rules R134, R138). -/
theorem clockEdge_answers (p : Params) {inp : PortIn} {s : State} (h : s.stable inp = true) :
    ∃ t : State, clockEdge p inp s = .next t :=
  ⟨_, clockEdge_eq p inp s h⟩

/-- Settles O39: the outputs are those of the settled state, and an edge's next state has the Q and the delivered
responses that `clockEdge_fields` gives. -/
theorem edgeTransfers : Obligations.EdgeTransfers := by
  intro p inp s hstable
  refine ⟨?_, fun hvalid => ?_, ?_⟩
  · rw [← State.settle_inReset p inp s]
    exact State.reqReady_iff p (s.settle p inp)
  · obtain ⟨hreset, ⟨r, rest, hq⟩, -⟩ := (s.settle p inp).rspValid_iff.1 hvalid
    rw [State.settle_inReset] at hreset
    exact ⟨hreset, r, rest, hq, State.rspData_of_valid p hvalid hq⟩
  · obtain ⟨t, ht⟩ := clockEdge_answers p hstable
    obtain ⟨-, -, hq, -, -, -, -, hdelivered⟩ := clockEdge_fields ht
    exact ⟨t, ht, hq, hdelivered⟩

/-- Where `rsp_ready` = 0 nothing is delivered (rule R70). -/
theorem State.delivers_of_not_ready {inp : PortIn} (s : State) (h : inp.rspReady = false) :
    s.delivers inp = false := by
  rw [State.delivers, h, Bool.and_false]

/-- A head that stays keeps its place, whatever is accepted behind it. -/
theorem State.nextQ_of_head_kept {s : State} {r : Request} {rest : List Request} (p : Params) (inp : PortIn)
    (hq : s.q = r :: rest) : ∃ more : List Request, s.nextQ p inp false = r :: more := by
  rw [State.nextQ, hq]
  exact ⟨_, List.cons_append⟩

/-- A head that stays has its wait run down by one. -/
theorem State.nextWait_of_head_kept {s : State} {r : Request} {rest : List Request} (p : Params) (inp : PortIn)
    (hq : s.q = r :: rest) : s.nextWait p inp false = s.rspWait - 1 := by
  obtain ⟨more, hmore⟩ := State.nextQ_of_head_kept p inp hq
  simp [State.nextWait, hmore, hq]

/-- CAPS decides CAPS.SUPPORTED (rule R23). -/
theorem State.capSupported_congr {s t : State} (h : t.caps = s.caps) : t.capSupported = s.capSupported := by
  rw [State.capSupported, h, State.capSupported]

/-- Settles O40: the head that was offered and not taken is still the head, its wait is still 0, and CAPS, on which F
depends, is the same. -/
theorem offeredResponseStable : Obligations.OfferedResponseStable := by
  intro p e1 e2 s t hvalid hready ht hrst
  change (s.settle p e1).rspValid = true at hvalid
  obtain ⟨hreset, ⟨r, rest, hq⟩, hwait⟩ := (s.settle p e1).rspValid_iff.1 hvalid
  obtain ⟨htcaps, htreset, htq, htwait, -⟩ := clockEdge_fields ht
  rw [State.delivers_of_not_ready _ hready] at htq htwait
  obtain ⟨more, hmore⟩ := State.nextQ_of_head_kept p e1 hq
  rw [hmore] at htq
  rw [State.nextWait_of_head_kept p e1 hq, hwait] at htwait
  rw [hreset] at htreset
  have htvalid : t.rspValid = true := t.rspValid_iff.2 ⟨htreset, ⟨r, more, htq⟩, htwait⟩
  rw [outputsAt, State.settle_running hrst htreset]
  refine ⟨htvalid, ?_⟩
  calc t.rspData p
      = response t.capSupported r := State.rspData_of_valid p htvalid htq
    _ = response (s.settle p e1).capSupported r := by rw [State.capSupported_congr htcaps]
    _ = (s.settle p e1).rspData p := (State.rspData_of_valid p hvalid hq).symm

/-! ## Clock edges as abstract steps (rules R31, R70, R130, R131) -/

/-- One enabled step is a sequence of steps. -/
theorem runMoves_singleton {n : Nat} {m : Move} {e e' : EngineState} {out : List Response}
    (h : m.apply n e = some (e', out)) : runMoves n [m] e = some (e', out) := by
  simp [runMoves, h]

/-- The level of `rst` is Reset, the release or no step at all. -/
theorem runMoves_settle (p : Params) (inp : PortIn) (s : State) (n : Nat) :
    runMoves n
      (if inp.rst then [Move.reset (s.settle p inp).caps]
        else if s.inReset then [Move.release (capsWord inp.strapCapSupported inp.strapCapX64)] else [])
      s.engine = some ((s.settle p inp).engine, []) := by
  cases hrst : inp.rst with
  | true =>
    rw [State.settle_rst hrst]
    exact runMoves_singleton rfl
  | false =>
    cases hreset : s.inReset with
    | true =>
      rw [State.settle_release hrst hreset]
      exact runMoves_singleton (by simp [Move.apply, State.engine, hreset])
    | false =>
      rw [State.settle_running hrst hreset]
      rfl

/-- A delivery is Deliver, which takes the head of Q and answers it. -/
theorem runMoves_deliver (p : Params) (inp : PortIn) (s : State) (n : Nat) :
    runMoves n (if s.delivers inp then [Move.deliver] else []) s.engine =
      some (⟨s.caps, if s.delivers inp then s.q.tail else s.q, s.inReset⟩,
        if s.delivers inp then [s.rspData p] else []) := by
  cases hd : s.delivers inp with
  | false => rfl
  | true =>
    obtain ⟨r, rest, hq, hrsp⟩ := State.delivers_head p hd
    apply runMoves_singleton
    rw [hrsp]
    simp [Move.apply, State.engine, hq, State.capSupported]

/-- An acceptance is Accept, enabled also after a Deliver at the same edge, since that only makes room. -/
theorem runMoves_accept (p : Params) (inp : PortIn) (s : State) (d : Bool) :
    runMoves p.maxInflight (if s.accepts p inp then [Move.accept inp.req] else [])
      ⟨s.caps, if d then s.q.tail else s.q, s.inReset⟩ = some (⟨s.caps, s.nextQ p inp d, s.inReset⟩, []) := by
  rw [State.nextQ]
  cases ha : s.accepts p inp with
  | false => simp
  | true =>
    obtain ⟨-, hreset, hroom⟩ := (s.accepts_iff p inp).1 ha
    have hkept : (if d then s.q.tail else s.q).length < p.maxInflight := by
      cases d with
      | false => exact hroom
      | true => exact lt_of_le_of_lt (by simp) hroom
    apply runMoves_singleton
    simp [Move.apply, hreset, hkept]

/-- Settles O44: the level of `rst`, the delivery and the acceptance, one after another. -/
theorem edgesRefineAbstractSteps : Obligations.EdgesRefineAbstractSteps := by
  intro p inp s t ht
  obtain ⟨htcaps, htreset, htq, -, -, -, -, htdelivered⟩ := clockEdge_fields ht
  refine ⟨_, htdelivered, ?_⟩
  have hend : t.engine = ⟨(s.settle p inp).caps, (s.settle p inp).nextQ p inp ((s.settle p inp).delivers inp),
      (s.settle p inp).inReset⟩ := by rw [State.engine, htcaps, htreset, htq]
  rw [htcaps, hend]
  have hmoves := runMoves_append
    (runMoves_append (runMoves_settle p inp s p.maxInflight)
      (runMoves_deliver p inp (s.settle p inp) p.maxInflight))
    (runMoves_accept p inp (s.settle p inp) _)
  rwa [List.nil_append, List.append_nil] at hmoves

/-! ## Edges of an engine that is not in reset -/

/-- Where reset is not asserted before or at the edge, and the offer is stable, an edge makes the transfers alone. -/
theorem clockEdge_running (p : Params) {inp : PortIn} {s : State} (hstable : s.stable inp = true)
    (hreset : s.inReset = false) (hrst : inp.rst = false) :
    ∃ t : State, clockEdge p inp s = .next t ∧ t.caps = s.caps ∧ t.inReset = false ∧
      t.q = s.nextQ p inp (s.delivers inp) ∧ t.rspWait = s.nextWait p inp (s.delivers inp) ∧
      t.held = (if inp.reqValid && !s.accepts p inp then some inp.req else none) ∧ t.inputs = s.inputs ∧
      t.delivered = s.delivered ++ (if s.delivers inp then [s.rspData p] else []) := by
  obtain ⟨t, ht⟩ := clockEdge_answers p hstable
  obtain ⟨hcaps, htreset, hq, hwait, hheld, hinputs, -, hdelivered⟩ := clockEdge_fields ht
  rw [State.settle_running hrst hreset] at hcaps htreset hq hwait hheld hdelivered
  exact ⟨t, ht, hcaps, htreset.trans hreset, hq, hwait, hheld, hinputs, hdelivered⟩

/-- With no request held, any offer is stable (rule R134). -/
theorem State.stable_of_held_none {s : State} (inp : PortIn) (h : s.held = none) : s.stable inp = true := by
  rw [State.stable, h]

/-- A head whose wait is over has its response on offer (rule R70). -/
theorem State.rspValid_of_due {s : State} {r : Request} {rest : List Request} (hreset : s.inReset = false)
    (hq : s.q = r :: rest) (hwait : s.rspWait = 0) : s.rspValid = true :=
  s.rspValid_iff.2 ⟨hreset, ⟨r, rest, hq⟩, hwait⟩

/-- An offer that an edge leaves unaccepted is stable as long as the host repeats it (rule R134). -/
theorem State.stable_of_held {inp : PortIn} {s : State} (h : s.held = if inp.reqValid then some inp.req else none) :
    s.stable inp = true := by
  cases hv : inp.reqValid <;> simp [State.stable, h, hv]

/-- At an edge that takes a response and accepts no request, the head leaves with its response if its wait is over,
and otherwise its wait runs down. -/
theorem clockEdge_taking (p : Params) {inp : PortIn} {s : State} {r : Request} {rest : List Request}
    (hstable : s.stable inp = true) (hreset : s.inReset = false) (hrst : inp.rst = false)
    (hready : inp.rspReady = true) (hq : s.q = r :: rest) (hacc : s.accepts p inp = false) :
    ∃ t : State, clockEdge p inp s = .next t ∧ t.caps = s.caps ∧ t.inReset = false ∧ t.inputs = s.inputs ∧
      t.stable inp = true ∧
      (s.rspWait = 0 ∧ t.q = rest ∧ t.delivered = s.delivered ++ [response s.capSupported r] ∨
        s.rspWait = t.rspWait + 1 ∧ t.q = s.q ∧ t.delivered = s.delivered) := by
  obtain ⟨t, ht, hcaps, htreset, htq, htwait, hheld, hinputs, hdelivered⟩ := clockEdge_running p hstable hreset hrst
  refine ⟨t, ht, hcaps, htreset, hinputs, State.stable_of_held (by simpa [hacc] using hheld), ?_⟩
  have hdelivers : s.delivers inp = s.rspValid := by rw [State.delivers, hready, Bool.and_true]
  rw [hdelivers] at htq htwait hdelivered
  rw [State.nextQ, hacc, hq] at htq
  cases hw : s.rspWait with
  | zero =>
    have hvalid := State.rspValid_of_due hreset hq hw
    rw [hvalid] at htq hdelivered
    rw [State.rspData_of_valid p hvalid hq] at hdelivered
    exact .inl ⟨rfl, by simpa using htq, hdelivered⟩
  | succ w =>
    have hinvalid : s.rspValid = false := by simp [State.rspValid, hw]
    rw [hinvalid] at htq htwait hdelivered
    rw [State.nextWait_of_head_kept p inp hq, hw] at htwait
    exact .inr ⟨by omega, by simpa [hq] using htq, by simpa using hdelivered⟩

/-- The edge that takes the response of a head whose wait is over. -/
theorem clockEdge_take_due (p : Params) {s : State} {r : Request} {rest : List Request} (hreset : s.inReset = false)
    (hheld : s.held = none) (hq : s.q = r :: rest) (hwait : s.rspWait = 0) :
    ∃ t : State, clockEdge p (takeEdge p) s = .next t ∧ t.caps = s.caps ∧ t.inReset = false ∧
      t.q = rest ∧ t.inputs = s.inputs ∧ t.delivered = s.delivered ++ [response s.capSupported r] := by
  obtain ⟨t, ht, hcaps, htreset, hinputs, -, ⟨-, htq, hdelivered⟩ | ⟨hpos, -⟩⟩ :=
    clockEdge_taking p (s.stable_of_held_none (takeEdge p) hheld) hreset rfl rfl hq (Bool.false_and _)
  · exact ⟨t, ht, hcaps, htreset, htq, hinputs, hdelivered⟩
  · omega

/-- When Accept is enabled and what it does (rule R70). -/
theorem Move.apply_accept_iff {n : Nat} {r : Request} {e e' : EngineState} {out : List Response} :
    (Move.accept r).apply n e = some (e', out) ↔
      (e.inReset = false ∧ e.q.length < n) ∧ e' = ⟨e.caps, e.q ++ [r], e.inReset⟩ ∧ out = [] := by
  rw [Move.apply, Option.ite_none_right_eq_some, Bool.and_eq_true, Bool.not_eq_true', decide_eq_true_iff,
    Option.some.injEq, Prod.mk.injEq, eq_comm (b := e'), eq_comm (b := out)]

/-- When Deliver is enabled and what it does (rule R70). -/
theorem Move.apply_deliver_iff {n : Nat} {e e' : EngineState} {out : List Response} :
    Move.deliver.apply n e = some (e', out) ↔
      ∃ r rest, e.q = r :: rest ∧ e' = ⟨e.caps, rest, e.inReset⟩ ∧ out = [response (e.caps.getLsbD 0) r] := by
  simp only [Move.apply]
  cases hq : e.q with
  | nil => simp
  | cons r rest =>
    simp only [Option.some.injEq, Prod.mk.injEq, List.cons.injEq]
    constructor
    · rintro ⟨rfl, rfl⟩
      exact ⟨r, rest, ⟨rfl, rfl⟩, rfl, rfl⟩
    · rintro ⟨-, -, ⟨rfl, rfl⟩, rfl, rfl⟩
      exact ⟨rfl, rfl⟩

/-- Settles O45: Accept is the edge that offers the request and takes nothing; Deliver is the edge that offers nothing
and takes the response, which a head whose wait is over has on offer. -/
theorem abstractStepsAreEdges : Obligations.AbstractStepsAreEdges := by
  intro p s hreset hheld
  refine ⟨fun r e out happly => ?_, fun e out hwait happly => ?_⟩
  · obtain ⟨⟨-, hroom⟩, rfl, rfl⟩ := Move.apply_accept_iff.1 happly
    obtain ⟨t, ht, hcaps, htreset, hq, -, -, -, hdelivered⟩ := clockEdge_running p
      (s.stable_of_held_none { offerEdge p r with rspReady := false } hheld) hreset rfl
    have hacc : s.accepts p { offerEdge p r with rspReady := false } = true :=
      (s.accepts_iff p _).2 ⟨rfl, hreset, hroom⟩
    rw [State.delivers_of_not_ready _ rfl] at hq hdelivered
    rw [State.nextQ, hacc] at hq
    exact ⟨t, ht, by rw [State.engine, hcaps, htreset.trans hreset.symm, hq]; rfl, hdelivered⟩
  · obtain ⟨r, rest, hq, rfl, rfl⟩ := Move.apply_deliver_iff.1 happly
    obtain ⟨t, ht, hcaps, htreset, htq, -, hdelivered⟩ := clockEdge_take_due p hreset hheld hq hwait
    exact ⟨t, ht, by rw [State.engine, hcaps, htreset.trans hreset.symm, htq]; rfl, hdelivered⟩

/-- Settles O38: the placed request is at the head of Q with its response on offer, and the first edge takes it. -/
theorem fetchWordRunsNext : Obligations.FetchWordRunsNext := by
  intro s nbits w
  obtain ⟨u, hu, hcaps, -, hq, hinputs, hdelivered⟩ :=
    clockEdge_take_due Config.chip (s := { s.withFetchWord nbits w with inputs := s.inputs }) rfl rfl rfl rfl
  have hstep : step (s.withFetchWord nbits w) = .next u := (step_edge rfl).trans hu
  exact ⟨decode (Request.ofTableWord w), _, u, rfl, exec_decode _ _, hstep, hdelivered, hq, hcaps, hinputs⟩

end Sys2Proof.Machine

namespace Sys2Proof

/-! ## The checks on typed values (rules R26, R68, R114) -/

theorem TypedVec.inRange_iff (v : TypedVec) :
    v.inRange = true ↔ ∀ x ∈ v.elems, v.elem.least ≤ x ∧ x ≤ v.elem.greatest := by
  simp [TypedVec.inRange]

theorem VType.literalOk_iff (ty : VType) (xs : List Int) :
    ty.literalOk xs = true ↔ xs.length = ty.count ∧ ∀ x ∈ xs, ty.elem.least ≤ x ∧ x ≤ ty.elem.greatest := by
  rw [VType.literalOk, Bool.and_eq_true, beq_iff_eq, TypedVec.inRange_iff]

theorem Call.countsOk_iff (c : Call) : c.countsOk = true ↔ c.addend.elems.length = c.op.width.lanes ∧
    c.left.elems.length = c.op.narrowCount ∧ c.right.elems.length = c.op.narrowCount := by
  simp [Call.countsOk, and_assoc]

theorem Call.rangesOk_iff (c : Call) : c.rangesOk = true ↔
    c.addend.inRange = true ∧ c.left.inRange = true ∧ c.right.inRange = true := by
  simp [Call.rangesOk, and_assoc]

theorem Call.typesOk_iff (c : Call) : c.typesOk = true ↔ c.addend.elem = .i32 ∧
    c.left.elem = c.op.source.leftElem ∧ c.right.elem = c.op.source.rightElem := by
  simp [Call.typesOk, and_assoc]

theorem Call.wf_iff (c : Call) :
    c.wf = true ↔ c.countsOk = true ∧ c.rangesOk = true ∧ c.typesOk = true := by
  simp [Call.wf, and_assoc]

namespace Machine

/-! ## The call a request stands for (rules R63, R92, R111) -/

/-- A call that keeps the preconditions of rule R114 is decided by the gate alone. -/
theorem Call.run_of_wf (g : Bool) {c : Call} (h : c.wf = true) :
    Call.run g c = if g then .next (Call.result c) else .fault .unsupportedOperation := by
  obtain ⟨hcounts, hranges, htypes⟩ := c.wf_iff.1 h
  cases g <;> simp [Call.run, hcounts, hranges, htypes]

/-- The narrow elements of `left` lie in the range of the type of rule R25. -/
theorem leftLane_range (s : Source) (b : Bus) (k : Nat) :
    s.leftElem.least ≤ leftLane s b k ∧ leftLane s b k ≤ s.leftElem.greatest := by
  cases s with
  | byte => exact u8lane_range b k
  | word => exact i16lane_range b k

/-- The narrow elements of `right` lie in the range of the type of rule R25. -/
theorem rightLane_range (s : Source) (b : Bus) (k : Nat) :
    s.rightElem.least ≤ rightLane s b k ∧ rightLane s b k ≤ s.rightElem.greatest := by
  cases s with
  | byte => exact i8lane_range b k
  | word => exact i16lane_range b k

/-- A vector read lane by lane is in range if every lane is. -/
theorem inRange_map_range {e : Elem} {f : Nat → Int} (n : Nat) (h : ∀ k, e.least ≤ f k ∧ f k ≤ e.greatest) :
    TypedVec.inRange ⟨e, (List.range n).map f⟩ = true := by
  rw [TypedVec.inRange_iff]
  intro x hx
  obtain ⟨k, -, rfl⟩ := List.mem_map.1 hx
  exact h k

/-- A request is never ill-formed (rules R26, R96): its call has the counts of its operation, elements that were read
from lanes of their types' widths, and the types of rule R25. -/
theorem requestCall_wf (r : Request) : (requestCall r).wf = true := by
  rw [Call.wf_iff, Call.countsOk_iff, Call.rangesOk_iff, Call.typesOk_iff]
  refine ⟨?_, ⟨inRange_map_range _ (lane32_range r.addend), inRange_map_range _ (leftLane_range _ r.left),
    inRange_map_range _ (rightLane_range _ r.right)⟩, rfl, rfl, rfl⟩
  simp [requestCall, lanes32]

/-- The result bus of the datapath, read as N lanes, holds the N results of rule R92. -/
theorem resultVec_wma (o : Op) (a l r : Bus) : resultVec o (wma o a l r) =
    ⟨.i32, resultLanes o (lane32 a) (leftLane o.source l) (rightLane o.source r)⟩ := by
  rw [resultVec, lanes32, resultLanes]
  congr 1
  exact List.map_congr_left fun i hi => lane32_wma o a l r i (List.mem_range.1 hi)

theorem elemAt_map_range {f : Nat → Int} {n k : Nat} (h : k < n) : elemAt ((List.range n).map f) k = f k := by
  simp [elemAt, h]

/-- The call a request stands for has the lanes of the response's result bus as its result. -/
theorem result_requestCall (r : Request) :
    Call.result (requestCall r) = resultVec (decodeOp r.op) (response true r).result := by
  have hbus : (response true r).result = wma (decodeOp r.op) r.addend r.left r.right := rfl
  rw [hbus, resultVec_wma, Call.result]
  congr 1
  exact resultLanes_congr _ (fun _ => elemAt_map_range) (fun _ => elemAt_map_range) (fun _ => elemAt_map_range)

/-- Settles O52: the call is well formed, so the gate alone decides, and its lanes are those of the bus. -/
theorem busRequestMeetsItsCall : Obligations.BusRequestMeetsItsCall := by
  intro r
  have hrun (g : Bool) := Call.run_of_wf g (requestCall_wf r)
  exact ⟨by rw [hrun, if_pos rfl, result_requestCall], rfl, by rw [hrun]; rfl, rfl⟩

/-! ## Host lines without a request (rule R68) -/

/-- A running host between lines runs the statement of its line. -/
theorem systemStep_stmt {y : System} {prog : Program} {st : Stmt} (p : Params) (hrun : y.host.status = .running)
    (hidle : y.host.phase = .idle) (hline : prog[y.host.line]? = some (.stmt st)) :
    systemStep p prog y = runStmt prog st y := by
  rw [systemStep_line p prog hrun hidle, runLine, hline]

/-- A literal line (rule R68). -/
theorem runStmt_literal (prog : Program) (vd : String) (ty : VType) (xs : List Int) (y : System) :
    runStmt prog (.literal vd ty xs) y =
      if xs.length = ty.count ∧ ∀ x ∈ xs, ty.elem.least ≤ x ∧ x ≤ ty.elem.greatest then
        .next { y with host := { y.host with
          env := bindName vd ⟨ty.elem, xs⟩ y.host.env, line := y.host.line + 1 } }
      else .refused .badLiteral := by
  simp only [runStmt, VType.literalOk_iff, System.advance]

/-- A branch to a label that is declared goes to its line. -/
theorem gotoLabel_found {prog : Program} {l : String} {k : Nat} (y : System) (h : findLabel prog l = some k) :
    gotoLabel prog l y = .next { y with host := { y.host with line := k } } := by
  rw [gotoLabel, h]

/-- A branch to a label that is not declared is refused (log 17). -/
theorem gotoLabel_unknown {prog : Program} {l : String} (y : System) (h : findLabel prog l = none) :
    gotoLabel prog l y = .refused .unknownLabel := by
  rw [gotoLabel, h]

/-- `br.nocap` is `br` while cap_supported = 0, and goes on otherwise. -/
theorem runStmt_brNocap (prog : Program) (l : String) (y : System) : runStmt prog (.brNocap l) y =
    if y.engine.capSupported then .next y.advance else runStmt prog (.br l) y := rfl

/-- Settles O53, line by line. -/
theorem hostLinesWithoutARequest : Obligations.HostLinesWithoutARequest := by
  intro p prog y hrun hidle
  have hstmt {st : Stmt} (h : prog[y.host.line]? = some (.stmt st)) : systemStep p prog y = runStmt prog st y :=
    systemStep_stmt p hrun hidle h
  refine ⟨fun vd ty xs h => ?literal, fun l k hk hfirst => ?declared, fun l hl => ?undeclared, fun l h => ?label, ?halt⟩
  case literal =>
    exact ⟨bindName vd ⟨ty.elem, xs⟩ y.host.env, lookupName_bindName_same _ _ _,
      fun m => lookupName_bindName_other _ _ _ _, (hstmt h).trans (runStmt_literal prog vd ty xs y)⟩
  case declared =>
    have hgoto : runStmt prog (.br l) y = .next { y with host := { y.host with line := k } } :=
      gotoLabel_found y (findLabel_eq_some hk hfirst)
    refine ⟨fun h => ?_, fun h => (hstmt h).trans hgoto⟩
    rw [hstmt h, runStmt_brNocap, hgoto]
    cases hc : y.engine.capSupported <;> simp [State.outputs, hc, System.advance]
  case undeclared =>
    have hgoto : runStmt prog (.br l) y = .refused .unknownLabel := gotoLabel_unknown y (findLabel_eq_none hl)
    refine ⟨fun h => ?_, fun h => (hstmt h).trans hgoto⟩
    rw [hstmt h, runStmt_brNocap, hgoto]
    rfl
  case label =>
    rw [systemStep_line p prog hrun hidle, runLine, h]
    rfl
  case halt =>
    rintro (h | h)
    · exact hstmt h
    · rw [systemStep_line p prog hrun hidle, runLine, h]

/-! ## The checks of an issue line (rules R25, R68, R69) -/

/-- An issue line whose operands pass the check goes on to offer its request. -/
theorem runStmt_issue_of_call {op : Op} {va vl vr : String} {y : System} {c : Call} (prog : Program) (vd : String)
    (h : issueCall y.host.env op va vl vr = some c) : runStmt prog (.issue vd op va vl vr) y =
      .next { y with host := { y.host with phase := .offering vd op (Call.request c) } } := by
  rw [runStmt, h]

/-- An issue line whose operands fail the check is refused. -/
theorem runStmt_issue_of_none {op : Op} {va vl vr : String} {y : System} (prog : Program) (vd : String)
    (h : issueCall y.host.env op va vl vr = none) :
    runStmt prog (.issue vd op va vl vr) y = .refused .badOperand := by
  rw [runStmt, h]

/-- The type check of an issue line whose operands are bound: the element types and counts of rule R25. -/
theorem issueCall_bound {env : HostMap} {va vl vr : String} {a l r : TypedVec} (op : Op)
    (ha : lookupName env va = some a) (hl : lookupName env vl = some l) (hr : lookupName env vr = some r) :
    issueCall env op va vl vr =
      if (a.elem = .i32 ∧ a.elems.length = op.width.lanes) ∧
          (l.elem = op.source.leftElem ∧ l.elems.length = op.source.group * op.width.lanes) ∧
          (r.elem = op.source.rightElem ∧ r.elems.length = op.source.group * op.width.lanes) then
        some ⟨op, a, l, r⟩
      else none := by
  simp only [issueCall, ha, hl, hr, Bool.and_eq_true, Call.countsOk_iff, Call.typesOk_iff, Op.narrowCount]
  congr 1
  simp only [eq_iff_iff]
  tauto

/-- An issue line one of whose operands names no value has no call. -/
theorem issueCall_unbound {env : HostMap} {va vl vr : String} (op : Op)
    (h : lookupName env va = none ∨ lookupName env vl = none ∨ lookupName env vr = none) :
    issueCall env op va vl vr = none := by
  unfold issueCall
  split
  · simp_all
  · rfl

/-- Settles O55: the check of an issue line is on its operands' types and counts, and the request it offers is that of
the call. -/
theorem hostIssueChecksTypes : Obligations.HostIssueChecksTypes := by
  intro p prog y vd va vl vr op hrun hidle hline
  rw [systemStep_stmt p hrun hidle hline]
  refine ⟨fun a l r ha hl hr => ?_, fun h => runStmt_issue_of_none prog vd (issueCall_unbound op h)⟩
  have hcall := issueCall_bound op ha hl hr
  split_ifs with hok
  · rw [if_pos hok] at hcall
    rw [runStmt_issue_of_call prog vd hcall, Call.request]
  · rw [if_neg hok] at hcall
    exact runStmt_issue_of_none prog vd hcall

end Machine

end Sys2Proof

namespace Sys2Proof.Machine

/-! ## The value-level result of an issue line (rules R25, R28, R92) -/

theorem elemAt_of_lt {xs : List Int} {k : Nat} (h : k < xs.length) : elemAt xs k = xs[k] := by
  simp [elemAt, h]

/-- The range of a signed type is that of its bits read as two's complement (rules R11, R28). -/
theorem Elem.signed_bounds {e : Elem} (hsigned : e ≠ .u8) :
    0 < e.bits ∧ -2 ^ (e.bits - 1) ≤ e.least ∧ e.greatest < 2 ^ (e.bits - 1) := by
  cases e with
  | u8 => exact absurd rfl hsigned
  | i8 => decide
  | i16 => decide
  | i32 => decide

/-- A packed element of a signed type is read back signed (rules R28, R63). -/
theorem packVec_toInt {e : Elem} {v : TypedVec} (helem : v.elem = e) (hsigned : e ≠ .u8) (hrange : v.inRange = true)
    (hlen : e.bits * v.elems.length ≤ 256) {k : Nat} (hk : k < v.elems.length) :
    ((packVec v).extractLsb' (e.bits * k) e.bits).toInt = elemAt v.elems k := by
  subst helem
  obtain ⟨hlo, hhi⟩ := v.inRange_iff.1 hrange _ (List.getElem_mem hk)
  obtain ⟨hbits, hleast, hgreatest⟩ := Elem.signed_bounds hsigned
  rw [elemAt_of_lt hk, packVec]
  exact packLanes_toInt _ hbits v.elems hlen k hk (hleast.trans hlo) (Int.lt_of_le_of_lt hhi hgreatest)

/-- A packed byte of `left` is read back unsigned (rules R28, R63). -/
theorem packVec_toNat {v : TypedVec} (hbyte : v.elem = .u8) (hrange : v.inRange = true)
    (hlen : 8 * v.elems.length ≤ 256) {k : Nat} (hk : k < v.elems.length) :
    (((packVec v).extractLsb' (8 * k) 8).toNat : Int) = elemAt v.elems k := by
  obtain ⟨hlo, hhi⟩ := v.inRange_iff.1 hrange _ (List.getElem_mem hk)
  rw [hbyte] at hlo hhi
  rw [elemAt_of_lt hk, packVec, hbyte]
  exact packLanes_toNat 8 v.elems hlen k hk hlo (Int.lt_of_le_of_lt hhi (by decide))

/-- The elements of a packed addend are its 32-bit lanes. -/
theorem lane32_packVec {v : TypedVec} (helem : v.elem = .i32) (hrange : v.inRange = true)
    (hlen : v.elems.length ≤ 8) {k : Nat} (hk : k < v.elems.length) : lane32 (packVec v) k = elemAt v.elems k :=
  packVec_toInt helem (by decide) hrange (by rw [Elem.bits]; omega) hk

/-- The elements of a packed `left` are its narrow lanes. -/
theorem leftLane_packVec {s : Source} {v : TypedVec} (helem : v.elem = s.leftElem) (hrange : v.inRange = true)
    (hlen : v.elems.length ≤ 8 * s.group) {k : Nat} (hk : k < v.elems.length) :
    leftLane s (packVec v) k = elemAt v.elems k := by
  cases s with rw [Source.group] at hlen
  | byte => exact packVec_toNat helem hrange (by omega) hk
  | word => exact packVec_toInt helem (by decide) hrange (by rw [Source.leftElem, Elem.bits]; omega) hk

/-- The elements of a packed `right` are its narrow lanes. -/
theorem rightLane_packVec {s : Source} {v : TypedVec} (helem : v.elem = s.rightElem) (hrange : v.inRange = true)
    (hlen : v.elems.length ≤ 8 * s.group) {k : Nat} (hk : k < v.elems.length) :
    rightLane s (packVec v) k = elemAt v.elems k := by
  cases s with rw [Source.group] at hlen
  | byte => exact packVec_toInt helem (by decide) hrange (by rw [Source.rightElem, Elem.bits]; omega) hk
  | word => exact packVec_toInt helem (by decide) hrange (by rw [Source.rightElem, Elem.bits]; omega) hk

/-- The result bus of a well-formed call's request, read as N lanes, is the call's result. -/
theorem resultVec_request {c : Call} (h : c.wf = true) :
    resultVec c.op (response true (Call.request c)).result = Call.result c := by
  obtain ⟨hcounts, hranges, htypes⟩ := c.wf_iff.1 h
  obtain ⟨hca, hcl, hcr⟩ := c.countsOk_iff.1 hcounts
  obtain ⟨hra, hrl, hrr⟩ := c.rangesOk_iff.1 hranges
  obtain ⟨hta, htl, htr⟩ := c.typesOk_iff.1 htypes
  have hlanes := Width.lanes_le c.op.width
  have hnarrow : c.op.narrowCount ≤ 8 * c.op.source.group := by
    rw [Op.narrowCount, Nat.mul_comm]
    exact Nat.mul_le_mul_right _ hlanes
  have hbus : (response true (Call.request c)).result =
      wma c.op (packVec c.addend) (packVec c.left) (packVec c.right) := by
    simp only [response, Call.request, if_true, decodeOp_encodeOp]
  rw [hbus, resultVec_wma, Call.result]
  congr 1
  exact resultLanes_congr c.op (fun _ hi => lane32_packVec hta hra (by omega) (by omega))
    (fun _ hk => leftLane_packVec htl hrl (by omega) (by omega))
    (fun _ hk => rightLane_packVec htr hrr (by omega) (by omega))

end Sys2Proof.Machine

namespace Sys2Proof.Machine

/-! ## Runs of a host and its engine (rule R68) -/

/-- Some number of steps of a host and its engine leads from one state to another. -/
def Reaches (p : Params) (prog : Program) (y z : System) : Prop := ∃ n : Nat, runSystem p prog n y = .next z

theorem Reaches.refl (p : Params) (prog : Program) (y : System) : Reaches p prog y y := ⟨0, rfl⟩

theorem Reaches.head {p : Params} {prog : Program} {y y' z : System} (h : systemStep p prog y = .next y')
    (h' : Reaches p prog y' z) : Reaches p prog y z := by
  obtain ⟨n, hn⟩ := h'
  exact ⟨n + 1, by rw [runSystem, h]; exact hn⟩

theorem Reaches.trans {p : Params} {prog : Program} {y y' z : System} (h : Reaches p prog y y')
    (h' : Reaches p prog y' z) : Reaches p prog y z := by
  obtain ⟨n, hn⟩ := h
  induction n generalizing y with
  | zero =>
    cases hn
    exact h'
  | succ n ih =>
    rw [runSystem] at hn
    cases hstep : systemStep p prog y with
    | next x => exact (ih (by simpa only [hstep] using hn)).head hstep
    | fault f => simp [hstep] at hn
    | refused w => simp [hstep] at hn

/-- A host that repeats its edge while the head's wait runs down comes to the edge that delivers the head's response.
What is asked of the host is that an edge without a delivery leaves it as it is. -/
theorem reaches_delivery {p : Params} {prog : Program} {host : HostState} {inp : PortIn} {r : Request}
    {rest : List Request} (hrst : inp.rst = false) (hready : inp.rspReady = true)
    (hacc : ∀ s : State, s.q = r :: rest → s.accepts p inp = false)
    (hstay : ∀ s t : State, s.inReset = false → s.q = r :: rest → clockEdge p inp s = .next t →
      t.delivered = s.delivered → systemStep p prog ⟨host, s⟩ = .next ⟨host, t⟩)
    {s : State} (hreset : s.inReset = false) (hstable : s.stable inp = true) (hq : s.q = r :: rest) :
    ∃ u t : State, Reaches p prog ⟨host, s⟩ ⟨host, u⟩ ∧ u.inReset = false ∧ u.q = r :: rest ∧
      u.delivered = s.delivered ∧ clockEdge p inp u = .next t ∧ t.caps = s.caps ∧ t.inReset = false ∧
      t.stable inp = true ∧ t.q = rest ∧ t.delivered = s.delivered ++ [response s.capSupported r] := by
  induction hw : s.rspWait generalizing s with
  | zero =>
    obtain ⟨t, ht, hcaps, htreset, -, htstable, ⟨-, htq, hdel⟩ | ⟨hpos, -⟩⟩ :=
      clockEdge_taking p hstable hreset hrst hready hq (hacc s hq)
    · exact ⟨s, t, .refl _ _ _, hreset, hq, rfl, ht, hcaps, htreset, htstable, htq, hdel⟩
    · omega
  | succ w ih =>
    obtain ⟨t, ht, hcaps, htreset, -, htstable, ⟨hzero, -⟩ | ⟨hpos, htq, hdel⟩⟩ :=
      clockEdge_taking p hstable hreset hrst hready hq (hacc s hq)
    · omega
    · obtain ⟨u, v, hreach, hureset, huq, hudel, hv, hvcaps, hvreset, hvstable, hvq, hvdel⟩ :=
        ih htreset htstable (htq.trans hq) (by omega)
      have hcap := State.capSupported_congr hcaps
      exact ⟨u, v, hreach.head (hstay s t hreset hq ht hdel), hureset, huq, hudel.trans hdel, hv, hvcaps.trans hcaps,
        hvreset, hvstable, hvq, by rw [hvdel, hdel, hcap]⟩

/-- The delivery of the head moves its response from those owed to those delivered. -/
theorem State.delivered_append_owed_of_head {s t : State} {r : Request} {rest : List Request} (hcaps : t.caps = s.caps)
    (hq : s.q = r :: rest) (htq : t.q = rest) (hdel : t.delivered = s.delivered ++ [response s.capSupported r]) :
    t.delivered ++ t.owed = s.delivered ++ s.owed := by
  simp [State.owed, State.capSupported_congr hcaps, hq, htq, hdel]

/-! ## An issue line waiting for its response -/

/-- A waiting host has one clock edge at each step. -/
theorem systemStep_waiting {p : Params} {host : HostState} {vd : String} {op : Op} {k : Nat} {s t : State}
    (prog : Program) (hrun : host.status = .running) (hphase : host.phase = .waiting vd op k)
    (ht : clockEdge p (takeEdge p) s = .next t) :
    systemStep p prog ⟨host, s⟩ = .next (afterTake vd op k s ⟨host, t⟩) := by
  simp only [systemStep, hrun, hphase, ht]

/-- Without a delivery the host waits on. -/
theorem afterTake_none {host : HostState} {s t : State} (vd : String) (op : Op) (k : Nat)
    (h : t.delivered = s.delivered) : afterTake vd op k s ⟨host, t⟩ = ⟨host, t⟩ := by
  simp [afterTake, h]

/-- A response of an earlier request brings the host's own one nearer. -/
theorem afterTake_ahead {host : HostState} {s t : State} {rsp : Response} (vd : String) (op : Op) (k : Nat)
    (h : t.delivered = s.delivered ++ [rsp]) :
    afterTake vd op (k + 1) s ⟨host, t⟩ = ⟨{ host with phase := .waiting vd op k }, t⟩ := by
  simp [afterTake, h]

/-- The host acts on its own request's response. -/
theorem afterTake_own {host : HostState} {s t : State} {rsp : Response} (vd : String) (op : Op)
    (h : t.delivered = s.delivered ++ [rsp]) : afterTake vd op 0 s ⟨host, t⟩ = takeResponse vd op rsp ⟨host, t⟩ := by
  simp [afterTake, h]

/-- Status 0 binds the result and goes on at the next line (rule R68). -/
theorem takeResponse_ok {rsp : Response} (vd : String) (op : Op) (y : System) (h : rsp.status = statusOk) :
    takeResponse vd op rsp y = { y with host := { y.host with
      env := bindName vd (resultVec op rsp.result) y.host.env, line := y.host.line + 1, phase := .idle } } := by
  rw [takeResponse, if_pos h, System.advance]

/-- Status 1 stops at the line with nothing bound (rule R68). -/
theorem takeResponse_fault {rsp : Response} (vd : String) (op : Op) (y : System) (h : rsp.status ≠ statusOk) :
    takeResponse vd op rsp y =
      { y with host := { y.host with status := .faulted (y.host.line + 1), phase := .idle } } := by
  rw [takeResponse, if_neg h]

/-- What the host does with a response does not depend on the phase it was in, nor on the engine. -/
theorem takeResponse_host (vd : String) (op : Op) (rsp : Response) (host : HostState) (ph : IssuePhase) (s t : State) :
    (takeResponse vd op rsp ⟨{ host with phase := ph }, s⟩).host = (takeResponse vd op rsp ⟨host, t⟩).host := by
  by_cases h : rsp.status = statusOk
  · rw [takeResponse_ok vd op _ h, takeResponse_ok vd op _ h]
  · rw [takeResponse_fault vd op _ h, takeResponse_fault vd op _ h]

/-- What the host does with a response leaves the engine alone. -/
theorem takeResponse_engine (vd : String) (op : Op) (rsp : Response) (y : System) :
    (takeResponse vd op rsp y).engine = y.engine := by
  by_cases h : rsp.status = statusOk
  · rw [takeResponse_ok vd op _ h]
  · rw [takeResponse_fault vd op _ h]

/-- A waiting host comes to what it does with the response of the head of Q. -/
theorem waiting_reaches_afterTake (p : Params) (prog : Program) {host : HostState} {vd : String} {op : Op} {k : Nat}
    {r : Request} {rest : List Request} {s : State} (hrun : host.status = .running)
    (hphase : host.phase = .waiting vd op k) (hreset : s.inReset = false) (hstable : s.stable (takeEdge p) = true)
    (hq : s.q = r :: rest) :
    ∃ t : State, Reaches p prog ⟨host, s⟩ (afterTake vd op k s ⟨host, t⟩) ∧ t.caps = s.caps ∧ t.inReset = false ∧
      t.stable (takeEdge p) = true ∧ t.q = rest ∧ t.delivered = s.delivered ++ [response s.capSupported r] := by
  have hstay (u t : State) (ht : clockEdge p (takeEdge p) u = .next t) (hdel : t.delivered = u.delivered) :
      systemStep p prog ⟨host, u⟩ = .next ⟨host, t⟩ := by
    rw [systemStep_waiting prog hrun hphase ht, afterTake_none vd op k hdel]
  obtain ⟨u, t, hreach, -, -, hudel, ht, hcaps, htreset, htstable, htq, hdel⟩ :=
    reaches_delivery (inp := takeEdge p) rfl rfl (fun _ _ => Bool.false_and _) (fun u t _ _ => hstay u t) hreset
      hstable hq
  have hafter : afterTake vd op k u ⟨host, t⟩ = afterTake vd op k s ⟨host, t⟩ := by simp only [afterTake, hudel]
  have hstep := systemStep_waiting prog hrun hphase ht
  rw [hafter] at hstep
  exact ⟨t, hreach.trans (.head hstep (.refl _ _ _)), hcaps, htreset, htstable, htq, hdel⟩

/-- A waiting host gets its response, the last of those owed: by induction on the requests ahead of its own, each of
which is delivered in its turn. -/
theorem waiting_reaches (p : Params) (prog : Program) {host : HostState} {vd : String} {op : Op} {req : Request}
    {ahead : List Request} {s : State} (hrun : host.status = .running)
    (hphase : host.phase = .waiting vd op ahead.length) (hreset : s.inReset = false)
    (hstable : s.stable (takeEdge p) = true) (hq : s.q = ahead ++ [req]) :
    ∃ z : System, Reaches p prog ⟨host, s⟩ z ∧ z.engine.q = [] ∧ z.engine.caps = s.caps ∧
      z.engine.delivered = s.delivered ++ s.owed ∧
      z.host = (takeResponse vd op (response s.capSupported req) ⟨host, s⟩).host := by
  induction ahead generalizing host s with
  | nil =>
    obtain ⟨t, hreach, hcaps, -, -, htq, hdel⟩ :=
      waiting_reaches_afterTake p prog hrun hphase hreset hstable hq
    rw [List.length_nil, afterTake_own vd op hdel] at hreach
    refine ⟨_, hreach, ?_⟩
    rw [takeResponse_engine]
    exact ⟨htq, hcaps, by rw [hdel, State.owed, hq]; rfl, takeResponse_host vd op _ host host.phase t s⟩
  | cons r ahead ih =>
    obtain ⟨t, hreach, hcaps, htreset, htstable, htq, hdel⟩ :=
      waiting_reaches_afterTake p prog hrun hphase hreset hstable hq
    rw [List.length_cons, afterTake_ahead vd op _ hdel] at hreach
    obtain ⟨z, hz, hzq, hzcaps, hzdel, hzhost⟩ :=
      ih (host := { host with phase := .waiting vd op ahead.length }) hrun rfl htreset htstable htq
    refine ⟨z, hreach.trans hz, hzq, hzcaps.trans hcaps,
      hzdel.trans (State.delivered_append_owed_of_head hcaps hq htq hdel), ?_⟩
    rw [hzhost, State.capSupported_congr hcaps]
    exact takeResponse_host ..

/-! ## An issue line offering its request -/

/-- An offering host has one clock edge at each step, and waits once its request is accepted. -/
theorem systemStep_offering {p : Params} {host : HostState} {vd : String} {op : Op} {req : Request} {s t : State}
    (prog : Program) (hrun : host.status = .running) (hphase : host.phase = .offering vd op req)
    (hreset : s.inReset = false) (ht : clockEdge p (offerEdge p req) s = .next t) :
    systemStep p prog ⟨host, s⟩ = if s.reqReady p then
      .next ⟨{ host with phase := .waiting vd op (t.q.length - 1) }, t⟩ else .next ⟨host, t⟩ := by
  have hsettle : s.settle p (offerEdge p req) = s := State.settle_running rfl hreset
  simp only [systemStep, hrun, hphase, ht, hsettle]

/-- An offer of `req` comes to be accepted: the host reaches its wait with `req` last in Q, the requests ahead of it
counted and no request held, and of the responses delivered and owed only that of `req` is new, and last. -/
def OfferIsAccepted (p : Params) (prog : Program) (host : HostState) (vd : String) (op : Op) (req : Request)
    (s : State) : Prop :=
  ∃ (ahead : List Request) (t : State),
    Reaches p prog ⟨host, s⟩ ⟨{ host with phase := .waiting vd op ahead.length }, t⟩ ∧ t.q = ahead ++ [req] ∧
    t.caps = s.caps ∧ t.inReset = false ∧ t.stable (takeEdge p) = true ∧
    t.delivered ++ t.owed = s.delivered ++ s.owed ++ [response s.capSupported req]

/-- An offer to a Q with room is accepted at once, behind the requests whose responses are still owed. -/
theorem offering_accepted (p : Params) (prog : Program) {host : HostState} {vd : String} {op : Op} {req : Request}
    {s : State} (hrun : host.status = .running) (hphase : host.phase = .offering vd op req)
    (hreset : s.inReset = false) (hstable : s.stable (offerEdge p req) = true) (hroom : s.q.length < p.maxInflight) :
    OfferIsAccepted p prog host vd op req s := by
  have hready : s.reqReady p = true := (s.reqReady_iff p).2 ⟨hreset, hroom⟩
  have hacc : s.accepts p (offerEdge p req) = true := (s.accepts_iff p _).2 ⟨rfl, hreset, hroom⟩
  obtain ⟨t, ht, hcaps, htreset, htq, -, hheld, -, -⟩ := clockEdge_running p hstable hreset rfl
  have hstep := systemStep_offering prog hrun hphase hreset ht
  have howed := clockEdge_delivered_append_owed hreset rfl ht
  rw [State.nextQ, hacc, if_pos rfl] at htq
  rw [hacc] at hheld howed
  rw [if_pos hready, htq, List.length_append, List.length_singleton, Nat.add_sub_cancel] at hstep
  exact ⟨_, t, .head hstep (.refl _ _ _), htq, hcaps, htreset, State.stable_of_held_none _ hheld, howed⟩

/-- An offering host gets its request into Q: by induction on Q, whose head is delivered as long as there is no
room. -/
theorem offering_reaches (p : Params) (prog : Program) {host : HostState} {vd : String} {op : Op} {req : Request}
    {s : State} (hrun : host.status = .running) (hphase : host.phase = .offering vd op req)
    (hreset : s.inReset = false) (hstable : s.stable (offerEdge p req) = true) :
    OfferIsAccepted p prog host vd op req s := by
  induction hq : s.q generalizing s with
  | nil => exact offering_accepted p prog hrun hphase hreset hstable (by rw [hq]; exact Nat.succ_pos _)
  | cons r rest ih =>
    by_cases hroom : s.q.length < p.maxInflight
    · exact offering_accepted p prog hrun hphase hreset hstable hroom
    · have hfull (u : State) (hu : u.q = r :: rest) : u.reqReady p = false := by
        rw [State.reqReady, hu, ← hq, decide_eq_false hroom, Bool.and_false]
      have hacc (u : State) (hu : u.q = r :: rest) : u.accepts p (offerEdge p req) = false := by
        rw [State.accepts, hfull u hu, Bool.and_false]
      have hstep (u t : State) (hureset : u.inReset = false) (hu : u.q = r :: rest)
          (ht : clockEdge p (offerEdge p req) u = .next t) : systemStep p prog ⟨host, u⟩ = .next ⟨host, t⟩ := by
        rw [systemStep_offering prog hrun hphase hureset ht, hfull u hu]
        rfl
      obtain ⟨u, t, hreach, hureset, huq, -, ht, hcaps, htreset, htstable, htq, hdel⟩ := reaches_delivery
        (inp := offerEdge p req) rfl rfl hacc (fun u t hu huq ht _ => hstep u t hu huq ht) hreset hstable hq
      obtain ⟨ahead, v, hv, hvq, hvcaps, hvreset, hvstable, hvowed⟩ := ih htreset htstable htq
      refine ⟨ahead, v, (hreach.trans (.head (hstep u t hureset huq ht) (.refl _ _ _))).trans hv, hvq,
        hvcaps.trans hcaps, hvreset, hvstable, ?_⟩
      rw [hvowed, State.capSupported_congr hcaps, State.delivered_append_owed_of_head hcaps hq htq hdel]

/-! ## An issue line from start to end -/

/-- An issue line whose call is well formed leads to its own response: every response owed before is delivered, then
its own, on which the host acts. -/
theorem issue_reaches_response (p : Params) {prog : Program} {y : System} {vd va vl vr : String} {c : Call}
    (hrun : y.host.status = .running) (hidle : y.host.phase = .idle)
    (hline : prog[y.host.line]? = some (.stmt (.issue vd c.op va vl vr)))
    (hcall : issueCall y.host.env c.op va vl vr = some c) (hreset : y.engine.inReset = false)
    (hheld : y.engine.held = none ∨ y.engine.held = some (Call.request c)) :
    ∃ z : System, Reaches p prog y z ∧ z.engine.q = [] ∧ z.engine.caps = y.engine.caps ∧
      z.engine.delivered = y.engine.delivered ++ y.engine.owed ++
        [response y.engine.capSupported (Call.request c)] ∧
      z.host = (takeResponse vd c.op (response y.engine.capSupported (Call.request c)) y).host := by
  have hissue := (systemStep_stmt p hrun hidle hline).trans (runStmt_issue_of_call prog vd hcall)
  have hstable : y.engine.stable (offerEdge p (Call.request c)) = true := by
    rcases hheld with h | h <;> simp [State.stable, h, offerEdge]
  obtain ⟨ahead, t, hoffer, htq, htcaps, htreset, htstable, howed⟩ :=
    offering_reaches p prog (host := { y.host with phase := .offering vd c.op (Call.request c) }) hrun rfl hreset
      hstable
  obtain ⟨z, hwait, hzq, hzcaps, hzdel, hzhost⟩ := waiting_reaches p prog
    (host := { y.host with phase := .waiting vd c.op ahead.length }) hrun rfl htreset htstable htq
  refine ⟨z, (hoffer.head hissue).trans hwait, hzq, hzcaps.trans htcaps, hzdel.trans howed, ?_⟩
  rw [hzhost, State.capSupported_congr htcaps]
  exact takeResponse_host ..

/-- Settles O54: the operands of a well-formed call pass the line's check, the line leads to its own response, and the
host binds the result bus read as N lanes, which is the call's result, or stops. -/
theorem hostIssueMeetsValueLevel : Obligations.HostIssueMeetsValueLevel := by
  intro p prog y vd va vl vr op a l r hrun hidle hline ha hl hr hwf hreset hheld
  obtain ⟨hcounts, -, htypes⟩ := (Call.wf_iff _).1 hwf
  have hcall : issueCall y.host.env op va vl vr = some ⟨op, a, l, r⟩ := by
    simp only [issueCall, ha, hl, hr, hcounts, htypes, Bool.and_self, if_true]
  obtain ⟨z, ⟨n, hn⟩, hq, hcaps, hdel, hhost⟩ := issue_reaches_response p hrun hidle hline hcall hreset hheld
  refine ⟨n, z, hn, hq, hcaps, hdel, ?_⟩
  cases hc : y.engine.capSupported with
  | true =>
    rw [hc, takeResponse_ok vd op y rfl, resultVec_request hwf] at hhost
    rw [hhost]
    exact ⟨rfl, fun _ => ⟨hrun, rfl, lookupName_bindName_same _ _ _, fun m => lookupName_bindName_other _ _ _ _⟩,
      nofun⟩
  | false =>
    rw [hc, takeResponse_fault vd op y (show statusUnsupported ≠ statusOk by decide)] at hhost
    rw [hhost]
    exact ⟨rfl, nofun, fun _ => ⟨rfl, rfl⟩⟩

end Sys2Proof.Machine

namespace Sys2Proof

/-! ## The words of a line (rules R66, R67) -/

/-- A character that goes into a word: neither a blank nor a mark. -/
def isPlain (c : Char) : Bool := !isBlank c && !isMark c

/-- A text that is read as one word. -/
def isWord (s : String) : Bool := !s.toList.isEmpty && s.toList.all isPlain

/-- The characters of a word are kept until it ends. -/
theorem lineWords_append_of_plain {cs : List Char} (h : cs.all isPlain = true) (rest w : List Char) :
    lineWords (cs ++ rest) w = lineWords rest (cs.reverse ++ w) := by
  induction cs generalizing w with
  | nil => rfl
  | cons c cs ih =>
    obtain ⟨hc, hcs⟩ := Bool.and_eq_true_iff.1 h
    obtain ⟨hblank, hmark⟩ : isBlank c = false ∧ isMark c = false := by simpa [isPlain] using hc
    rw [List.cons_append, lineWords, hblank, hmark, List.reverse_cons, List.append_assoc]
    exact ih hcs (c :: w)

/-- What has been read of a word is that word, whatever ends it. -/
theorem lineWords_word_append {s : String} (h : isWord s = true) (rest : List Char) :
    ∃ w, lineWords (s.toList ++ rest) [] = lineWords rest w ∧ flushWord w = [s] := by
  obtain ⟨hne, hplain⟩ := Bool.and_eq_true_iff.1 h
  refine ⟨s.toList.reverse, by rw [lineWords_append_of_plain hplain, List.append_nil], ?_⟩
  cases hr : s.toList.reverse with
  | nil => simp [List.reverse_eq_nil_iff.1 hr] at hne
  | cons c cs => rw [flushWord, ← hr, List.reverse_reverse, String.ofList_toList]

/-- A blank ends a word. -/
theorem lineWords_word_blank {s : String} (h : isWord s = true) (rest : List Char) :
    lineWords (s.toList ++ ' ' :: rest) [] = s :: lineWords rest [] := by
  obtain ⟨w, hread, hflush⟩ := lineWords_word_append h (' ' :: rest)
  rw [hread, lineWords, hflush]
  rfl

/-- A mark ends a word and is a word of its own. -/
theorem lineWords_word_mark {s : String} {m : Char} (h : isWord s = true) (hblank : isBlank m = false)
    (hmark : isMark m = true) (rest : List Char) :
    lineWords (s.toList ++ m :: rest) [] = s :: String.ofList [m] :: lineWords rest [] := by
  obtain ⟨w, hread, hflush⟩ := lineWords_word_append h (m :: rest)
  rw [hread, lineWords, hflush, hblank, hmark]
  rfl

/-- The end of the text ends a word. -/
theorem lineWords_word {s : String} (h : isWord s = true) : lineWords s.toList [] = [s] := by
  obtain ⟨w, hread, hflush⟩ := lineWords_word_append h []
  rw [List.append_nil] at hread
  rw [hread, lineWords, hflush]

/-- Two words with a blank between them. -/
theorem lineWords_two {s s' : String} (h : isWord s = true) (h' : isWord s' = true) :
    lineWords (s.toList ++ ' ' :: s'.toList) [] = [s, s'] := by
  rw [lineWords_word_blank h, lineWords_word h']

/-- A word and a comma, with a blank after it. -/
theorem lineWords_word_comma {s : String} (h : isWord s = true) (rest : List Char) :
    lineWords (s.toList ++ ',' :: ' ' :: rest) [] = s :: "," :: lineWords rest [] :=
  lineWords_word_mark h rfl rfl _

/-- The start of a binding line: a name, `=` and the word after it. -/
theorem lineWords_binding {vd word : String} (h : isWord vd = true) (h' : isWord word = true) (rest : List Char) :
    lineWords (vd.toList ++ ' ' :: '=' :: ' ' :: (word.toList ++ ' ' :: rest)) [] =
      vd :: "=" :: word :: lineWords rest [] := by
  have hequals (cs : List Char) : lineWords ('=' :: ' ' :: cs) [] = "=" :: lineWords cs [] := rfl
  rw [lineWords_word_blank h, hequals, lineWords_word_blank h']

/-! ## Names and keywords are words -/

/-- A letter, a digit or `_` is neither a blank nor a mark. -/
theorem isPlain_of_nameChar {c : Char} (h : (c.isAlphanum || c == '_') = true) : isPlain c = true := by
  have hblank : isBlank c = false := by
    refine Bool.eq_false_iff.2 fun hc => ?_
    rw [isBlank, Bool.or_eq_true, beq_iff_eq, beq_iff_eq] at hc
    rcases hc with rfl | rfl <;> exact absurd h (by decide)
  have hmark : isMark c = false := by
    refine Bool.eq_false_iff.2 fun hc => ?_
    simp only [isMark, Bool.or_eq_true, beq_iff_eq] at hc
    rcases hc with (((rfl | rfl) | rfl) | rfl) | rfl <;> exact absurd h (by decide)
  rw [isPlain, hblank, hmark]
  rfl

/-- A name is a word. -/
theorem isWord_of_isName {n : String} (h : isName n = true) : isWord n = true := by
  unfold isName at h
  rw [isWord]
  cases hn : n.toList with
  | nil => simp [hn] at h
  | cons c cs =>
    simp only [hn, Bool.and_eq_true, List.all_eq_true] at h
    obtain ⟨hc, hcs⟩ := h
    have hfirst : (c.isAlphanum || c == '_') = true := by
      rw [Char.isAlphanum, Bool.or_right_comm, hc, Bool.true_or]
    have hall : ∀ d ∈ c :: cs, isPlain d = true :=
      List.forall_mem_cons.2 ⟨isPlain_of_nameChar hfirst, fun d hd => isPlain_of_nameChar (hcs d hd)⟩
    rw [List.all_eq_true.2 hall]
    rfl

/-- A name is no mark. -/
theorem ne_colon_of_isName {n : String} (h : isName n = true) : n ≠ ":" := by
  rintro rfl
  exact absurd h (by decide)

theorem isWord_mnemonic (op : Op) : isWord op.mnemonic = true := by
  obtain ⟨w, s, t⟩ := op
  cases w <;> cases s <;> cases t <;> decide

theorem isWord_name (ty : VType) : isWord ty.name = true := by
  cases ty <;> decide

/-- The two functions on vector types agree. -/
theorem ofName_name (ty : VType) : VType.ofName ty.name = some ty := by
  cases ty <;> decide

/-- The two functions on mnemonics agree. -/
theorem ofMnemonic_mnemonic (op : Op) : Op.ofMnemonic op.mnemonic = some op := by
  obtain ⟨w, s, t⟩ := op
  cases w <;> cases s <;> cases t <;> decide

/-- No mnemonic names a vector type. -/
theorem ofName_mnemonic (op : Op) : VType.ofName op.mnemonic = none := by
  obtain ⟨w, s, t⟩ := op
  cases w <;> cases s <;> cases t <;> decide

/-! ## The lines that hold no integer -/

theorem withNames_of_isName {names : List String} (l : Line) (h : ∀ n ∈ names, isName n = true) :
    withNames names l = .ok l := by
  rw [withNames, if_pos (List.all_eq_true.2 h)]

/-- A label is read back. -/
theorem parse_label {n : String} (h : isName n = true) : Line.parse (Line.text (.label n)) = .ok (.label n) := by
  have hwords : lineWords (Line.text (.label n)) [] = [n, ":"] := lineWords_word_mark (isWord_of_isName h) rfl rfl []
  rw [Line.parse, hwords]
  exact withNames_of_isName _ (by simpa using h)

/-- `br` is read back. -/
theorem parse_br {n : String} (h : isName n = true) :
    Line.parse (Line.text (.stmt (.br n))) = .ok (.stmt (.br n)) := by
  have hwords : lineWords (Line.text (.stmt (.br n))) [] = ["br", n] :=
    lineWords_two (s := "br") (by decide) (isWord_of_isName h)
  rw [Line.parse, hwords, lineOfWords]
  · exact withNames_of_isName _ (by simpa using h)
  · exact ne_colon_of_isName h

/-- `br.nocap` is read back. -/
theorem parse_brNocap {n : String} (h : isName n = true) :
    Line.parse (Line.text (.stmt (.brNocap n))) = .ok (.stmt (.brNocap n)) := by
  have hwords : lineWords (Line.text (.stmt (.brNocap n))) [] = ["br.nocap", n] :=
    lineWords_two (s := "br.nocap") (by decide) (isWord_of_isName h)
  rw [Line.parse, hwords, lineOfWords]
  · exact withNames_of_isName _ (by simpa using h)
  · exact ne_colon_of_isName h

/-- `halt` is read back. -/
theorem parse_halt : Line.parse (Line.text (.stmt .halt)) = .ok (.stmt .halt) := by
  have hwords : lineWords (Line.text (.stmt .halt)) [] = ["halt"] := lineWords_word (s := "halt") (by decide)
  rw [Line.parse, hwords]
  rfl

/-- An issue line is read back. -/
theorem parse_issue {vd va vl vr : String} (op : Op) (hd : isName vd = true) (ha : isName va = true)
    (hl : isName vl = true) (hr : isName vr = true) :
    Line.parse (Line.text (.stmt (.issue vd op va vl vr))) = .ok (.stmt (.issue vd op va vl vr)) := by
  have htext : Line.text (.stmt (.issue vd op va vl vr)) =
      vd.toList ++ ' ' :: '=' :: ' ' :: (op.mnemonic.toList ++ ' ' :: (va.toList ++ ',' :: ' ' ::
        (vl.toList ++ ',' :: ' ' :: vr.toList))) := by
    unfold Line.text Stmt.text
    simp only [List.append_assoc]
    rfl
  have hwords : lineWords (Line.text (.stmt (.issue vd op va vl vr))) [] =
      [vd, "=", op.mnemonic, va, ",", vl, ",", vr] := by
    rw [htext, lineWords_binding (isWord_of_isName hd) (isWord_mnemonic op), lineWords_word_comma (isWord_of_isName ha),
      lineWords_word_comma (isWord_of_isName hl), lineWords_word (isWord_of_isName hr)]
  have hline : lineOfWords [vd, "=", op.mnemonic, va, ",", vl, ",", vr] =
      bindingLine vd op.mnemonic [va, ",", vl, ",", vr] := rfl
  rw [Line.parse, hwords, hline]
  simp only [bindingLine, ofName_mnemonic, ofMnemonic_mnemonic]
  exact withNames_of_isName _ (by simp [hd, ha, hl, hr])

/-- Settles O56: each form of line is parted into its words, which name it. -/
theorem hostLinesReadBack : Obligations.HostLinesReadBack := fun _ _ _ _ hd ha hl hr =>
  ⟨parse_label hd, parse_br hd, parse_brNocap hd, parse_halt, fun op => parse_issue op hd ha hl hr⟩

end Sys2Proof

namespace Sys2Proof

/-! ## Integers in decimal (rule R67) -/

/-- One more digit at the end of a number. -/
theorem decimalFrom_append_digit {acc v d : Nat} {ds : List Char} {c : Char} (h : decimalFrom acc ds = some v)
    (hc : decimalDigit c = some d) : decimalFrom acc (ds ++ [c]) = some (v * 10 + d) := by
  induction ds generalizing acc with
  | nil =>
    cases h
    simp [decimalFrom, hc]
  | cons e ds ih =>
    simp only [List.cons_append, decimalFrom] at h ⊢
    cases he : decimalDigit e with
    | none => simp [he] at h
    | some k => exact ih (by simpa only [he] using h)

/-- The digit of a value below 10 has that value. -/
theorem decimalDigit_digitChar {d : Nat} (h : d < 10) : decimalDigit d.digitChar = some d := by
  revert d
  decide

/-- A number written in decimal is read back, by induction on its digits. -/
theorem decimalFrom_toDigits (n : Nat) : decimalFrom 0 (Nat.toDigits 10 n) = some n := by
  induction n using Nat.strongRecOn with
  | ind n ih =>
    by_cases hn : n < 10
    · rw [Nat.toDigits_of_lt_base hn]
      simp [decimalFrom, decimalDigit_digitChar hn]
    · rw [Nat.toDigits_of_base_le (by decide) (by omega)]
      have hdigits := decimalFrom_append_digit (ih (n / 10) (by omega))
        (decimalDigit_digitChar (Nat.mod_lt n (by decide : 10 > 0)))
      rwa [Nat.div_add_mod'] at hdigits

/-- A digit goes into a word and is no minus sign. -/
theorem plain_of_isDigit {c : Char} (h : c.isDigit = true) : isPlain c = true ∧ c ≠ '-' := by
  refine ⟨isPlain_of_nameChar (by rw [Char.isAlphanum, h, Bool.or_true, Bool.true_or]), ?_⟩
  rintro rfl
  exact absurd h (by decide)

/-- The characters of a number in decimal. -/
theorem plain_of_mem_toDigits {n : Nat} {c : Char} (h : c ∈ Nat.toDigits 10 n) : isPlain c = true ∧ c ≠ '-' :=
  plain_of_isDigit (Nat.isDigit_of_mem_toDigits (by decide) (by decide) h)

/-- An integer's text is one word. -/
theorem isWord_intText (x : Int) : isWord (String.ofList (intText x)) = true := by
  have hdigits : (Nat.toDigits 10 x.natAbs).all isPlain = true :=
    List.all_eq_true.2 fun c hc => (plain_of_mem_toDigits hc).1
  rw [isWord, String.toList_ofList, intText]
  split
  · rw [List.all_cons, hdigits]
    rfl
  · rw [hdigits, Bool.and_true, Bool.not_eq_true', List.isEmpty_eq_false_iff]
    exact Nat.toDigits_ne_nil

/-- A text of digits alone stands for their value. -/
theorem wordInt_digits {ds : List Char} {n : Nat} (hne : ds ≠ []) (hsign : '-' ∉ ds)
    (h : decimalFrom 0 ds = some n) : wordInt (String.ofList ds) = some (n : Int) := by
  unfold wordInt
  rw [String.toList_ofList]
  split
  · exact absurd rfl hne
  · exact absurd (List.mem_singleton_self _) hsign
  · exact absurd List.mem_cons_self hsign
  · rw [h]
    rfl

/-- A minus sign before digits stands for the negative of their value. -/
theorem wordInt_minus {ds : List Char} {n : Nat} (hne : ds ≠ []) (h : decimalFrom 0 ds = some n) :
    wordInt (String.ofList ('-' :: ds)) = some (-(n : Int)) := by
  cases ds with
  | nil => exact absurd rfl hne
  | cons c cs =>
    rw [wordInt, String.toList_ofList]
    simp [h]

/-- An integer's text is read back. -/
theorem wordInt_intText (x : Int) : wordInt (String.ofList (intText x)) = some x := by
  rw [intText]
  split
  case isTrue hneg =>
    rw [wordInt_minus Nat.toDigits_ne_nil (decimalFrom_toDigits _)]
    congr 1
    omega
  case isFalse hpos =>
    rw [wordInt_digits Nat.toDigits_ne_nil (fun h => (plain_of_mem_toDigits h).2 rfl) (decimalFrom_toDigits _)]
    congr 1
    omega

/-! ## A literal line (rule R67) -/

/-- An integer's text is parted off by the mark after it. -/
theorem lineWords_int_mark {m : Char} (x : Int) (hblank : isBlank m = false) (hmark : isMark m = true)
    (rest : List Char) : lineWords (intText x ++ m :: rest) [] =
      String.ofList (intText x) :: String.ofList [m] :: lineWords rest [] := by
  have h := lineWords_word_mark (isWord_intText x) hblank hmark rest
  rwa [String.toList_ofList] at h

/-- A list of integers up to its closing bracket is read back, by induction on the list. -/
theorem wordInts_intsText {xs : List Int} (hne : xs ≠ []) :
    wordInts (lineWords (intsText xs ++ [']']) []) = some xs := by
  induction xs with
  | nil => exact absurd rfl hne
  | cons x xs ih =>
    cases xs with
    | nil =>
      have hwords : lineWords (intsText [x] ++ [']']) [] = [String.ofList (intText x), "]"] :=
        lineWords_int_mark x rfl rfl []
      rw [hwords, wordInts, wordInt_intText]
      rfl
    | cons x' xs =>
      have hwords : lineWords (intsText (x :: x' :: xs) ++ [']']) [] =
          String.ofList (intText x) :: "," :: lineWords (intsText (x' :: xs) ++ [']']) [] := by
        rw [intsText, List.append_assoc]
        · exact lineWords_int_mark x rfl rfl _
        · nofun
      rw [hwords, wordInts, wordInt_intText, ih (by nofun)]

/-- A literal line is read back. -/
theorem parse_literal {vd : String} (ty : VType) {xs : List Int} (hd : isName vd = true) (hne : xs ≠ []) :
    Line.parse (Line.text (.stmt (.literal vd ty xs))) = .ok (.stmt (.literal vd ty xs)) := by
  have htext : Line.text (.stmt (.literal vd ty xs)) =
      vd.toList ++ ' ' :: '=' :: ' ' :: (ty.name.toList ++ ' ' :: '[' :: (intsText xs ++ [']'])) := by
    unfold Line.text Stmt.text
    simp only [List.append_assoc]
    rfl
  have hbracket (cs : List Char) : lineWords ('[' :: cs) [] = "[" :: lineWords cs [] := rfl
  have hwords : lineWords (Line.text (.stmt (.literal vd ty xs))) [] =
      vd :: "=" :: ty.name :: "[" :: lineWords (intsText xs ++ [']']) [] := by
    rw [htext, lineWords_binding (isWord_of_isName hd) (isWord_name ty), hbracket]
  have hline (ws : List String) : lineOfWords (vd :: "=" :: ty.name :: ws) = bindingLine vd ty.name ws := rfl
  rw [Line.parse, hwords, hline]
  simp only [bindingLine, ofName_name, wordInts_intsText hne]
  exact withNames_of_isName _ (by simpa using hd)

/-- Settles O57: the words of a literal line are its name, `=`, its type and the integers between brackets. -/
theorem hostLiteralReadsBack : Obligations.HostLiteralReadsBack := fun _ ty _ hd hne => parse_literal ty hd hne

end Sys2Proof
end

section
/-! PROOFS. The capability gate (40_capability_gate.md): the two bits of CAPS (R80, R81), which an edge without reset
keeps and of which only SUPPORTED is read. -/

namespace Sys2Proof.Machine

/-! ## The bits of CAPS (rules R23, R80, R81) -/

/-- Bit 0 of CAPS where a state holds the two bits. -/
theorem State.capSupported_of_caps {s : State} {c x : Bool} (h : s.caps = capsWord c x) : s.capSupported = c := by
  simp [State.capSupported, h]

/-- Bit 1 of CAPS where a state holds the two bits. -/
theorem State.capX64_of_caps {s : State} {c x : Bool} (h : s.caps = capsWord c x) : s.capX64 = x := by
  simp [State.capX64, h]

/-- CAPS decides CAPS.X64 (rule R23). -/
theorem State.capX64_congr {s t : State} (h : t.caps = s.caps) : t.capX64 = s.capX64 := by
  rw [State.capX64, h, State.capX64]

/-! ## CAPS.X64 gates nothing (rule R81) -/

/-- Executing an instruction delivers the response F of its request (rule R43), which of CAPS reads SUPPORTED alone. -/
theorem exec_eq_response (i : Instr) (s : State) :
    exec i s = .next { s with delivered := s.delivered ++ [response s.capSupported (encode i)] } := by
  have h := exec_decode (encode i) s
  rwa [decode_encode] at h

/-- Settles O29: the response is F of CAPS.SUPPORTED and the request, and neither depends on CAPS.X64. -/
theorem x64GatesNothing : Obligations.X64GatesNothing := by
  refine ⟨fun i s c => ⟨response c (encode i), fun x => ?_⟩,
    fun p s c x => ⟨State.capSupported_of_caps rfl, State.capX64_of_caps rfl⟩⟩
  have hcap : State.capSupported { s with caps := capsWord c x } = c := State.capSupported_of_caps rfl
  rw [exec_eq_response, hcap]

/-! ## CAPS between resets (rules R80, R83, R136) -/

/-- With reset released before and at an edge, the edge keeps CAPS and leaves reset released. -/
theorem clockEdge_running_caps {p : Params} {inp : PortIn} {s t : State} (hr : s.inReset = false)
    (hrst : inp.rst = false) (h : clockEdge p inp s = .next t) : t.caps = s.caps ∧ t.inReset = false := by
  obtain ⟨hcaps, hreset, -⟩ := clockEdge_fields h
  rw [State.settle_running hrst hr] at hcaps hreset
  exact ⟨hcaps, hreset.trans hr⟩

/-- A run of edges without reset keeps CAPS and leaves reset released, by induction on its edges. -/
theorem runEdges_running_caps {p : Params} {es : List PortIn} {s t : State} (hr : s.inReset = false)
    (hrst : ∀ e ∈ es, e.rst = false) (h : runEdges p es s = .next t) : t.caps = s.caps ∧ t.inReset = false := by
  induction es generalizing s with
  | nil =>
    cases h
    exact ⟨rfl, hr⟩
  | cons inp es ih =>
    obtain ⟨hinp, hes⟩ := List.forall_mem_cons.1 hrst
    obtain ⟨u, hedge, hrest⟩ := runEdges_cons_next h
    obtain ⟨hcaps, hreset⟩ := clockEdge_running_caps hr hinp hedge
    obtain ⟨hcaps', hreset'⟩ := ih hreset hes hrest
    exact ⟨hcaps'.trans hcaps, hreset'⟩

/-- Settles O30: the run keeps CAPS, and each capability output is a bit of it. -/
theorem capsConstantBetweenResets : Obligations.CapsConstantBetweenResets := by
  intro p es s t hr hrst hrun
  obtain ⟨hcaps, hreset⟩ := runEdges_running_caps hr hrst hrun
  exact ⟨hcaps, hreset, State.capSupported_congr hcaps, State.capX64_congr hcaps⟩

end Sys2Proof.Machine
end

section
/-! PROOFS. The datapath (41_datapath.md): the ranges of products, group sums and totals (R86 to R88), the two final
combinations (R89 to R91), the whole function (R92), and what its lanes depend on (R93 to R95). -/

namespace Sys2Proof.Machine

/-! ## The saturating helper (rule R91) -/

/-- Settles O17: the helper is `sat32` of the sum by definition, and `sat32` leaves an i32 alone. -/
theorem saturatingHelperLaws : Obligations.SaturatingHelperLaws := by
  refine ⟨fun a b => rfl, by decide, by decide, fun x hlo hhi => ?_⟩
  rw [saturatingAddI32, Int.add_zero, sat32_of_range hlo hhi]

/-! ## The ranges of the products (rules R86, R87) -/

/-- A byte-lane product is extreme where the unsigned byte is 255 and the signed one is at an end of its range. -/
theorem byte_product_range (l r : Bus) (j : Nat) :
    -32640 ≤ product (u8lane l) (i8lane r) j ∧ product (u8lane l) (i8lane r) j ≤ 32385 := by
  obtain ⟨hl, hl'⟩ := u8lane_range l j
  obtain ⟨hr, hr'⟩ := i8lane_range r j
  unfold product
  constructor <;> nlinarith

/-- A word-lane product is least where one word is -32768 and the other 32767, and greatest where both are -32768. -/
theorem word_product_range (l r : Bus) (j : Nat) :
    -1073709056 ≤ product (i16lane l) (i16lane r) j ∧ product (i16lane l) (i16lane r) j ≤ 1073741824 := by
  obtain ⟨hl, hl'⟩ := i16lane_range l j
  obtain ⟨hr, hr'⟩ := i16lane_range r j
  unfold product
  constructor <;> nlinarith

/-- Of two words whose product is 2^30 the second is -32768: any other has magnitude below 2^15. -/
theorem eq_least_of_word_mul_eq_max {x y : Int} (hx : -32768 ≤ x ∧ x ≤ 32767) (hy : -32768 ≤ y ∧ y ≤ 32767)
    (hmax : x * y = 1073741824) : y = -32768 := by
  obtain ⟨hlo, hhi⟩ := hx
  by_contra hne
  have hy' : -32767 ≤ y := by omega
  nlinarith

theorem word_product_eq_max_iff (l r : Bus) (j : Nat) :
    i16lane l j * i16lane r j = 1073741824 ↔ i16lane l j = -32768 ∧ i16lane r j = -32768 := by
  have hl := i16lane_range l j
  have hr := i16lane_range r j
  constructor
  · intro hmax
    exact ⟨eq_least_of_word_mul_eq_max hr hl (by rwa [mul_comm]), eq_least_of_word_mul_eq_max hl hr hmax⟩
  · rintro ⟨hleast, hleast'⟩
    rw [hleast, hleast']
    rfl

/-- Settles O18: the ends are reached with 255 and with -32768 on the left. -/
theorem productRanges : Obligations.ProductRanges :=
  ⟨byte_product_range, word_product_range,
    ⟨0xff#256, 0x80#256, by decide⟩, ⟨0xff#256, 0x7f#256, by decide⟩,
    ⟨0x8000#256, 0x7fff#256, by decide⟩, ⟨0x8000#256, 0x8000#256, by decide⟩⟩

/-! ## The ranges of the group sums and the totals (rules R88, R90) -/

/-- A group sum lies between G times a lower and G times an upper bound of the products (rule R88). -/
theorem groupSum_range {l r : Nat → Int} {lo hi : Int} (h : ∀ j, lo ≤ product l r j ∧ product l r j ≤ hi) (g i : Nat) :
    g * lo ≤ groupSum g l r i ∧ groupSum g l r i ≤ g * hi := by
  have hterm : ∀ x ∈ (List.range g).map fun k => product l r (g * i + k), lo ≤ x ∧ x ≤ hi := by
    intro x hx
    obtain ⟨k, -, rfl⟩ := List.mem_map.1 hx
    exact h _
  have hlo := List.card_nsmul_le_sum _ lo fun x hx => (hterm x hx).1
  have hhi := List.sum_le_card_nsmul _ hi fun x hx => (hterm x hx).2
  rw [List.length_map, List.length_range, nsmul_eq_mul] at hlo hhi
  exact ⟨hlo, hhi⟩

theorem byte_groupSum_range (l r : Bus) (i : Nat) :
    -130560 ≤ groupSum 4 (u8lane l) (i8lane r) i ∧ groupSum 4 (u8lane l) (i8lane r) i ≤ 129540 :=
  groupSum_range (byte_product_range l r) 4 i

theorem word_groupSum_range (l r : Bus) (i : Nat) :
    -2147418112 ≤ groupSum 2 (i16lane l) (i16lane r) i ∧ groupSum 2 (i16lane l) (i16lane r) i ≤ 2147483648 :=
  groupSum_range (word_product_range l r) 2 i

/-- A word-lane group sum is 2^31 only where both of its products are 2^30 (90_conflicts.md C5). -/
theorem word_groupSum_eq_max_iff (l r : Bus) (i : Nat) : groupSum 2 (i16lane l) (i16lane r) i = 2147483648 ↔
    i16lane l (2 * i) = -32768 ∧ i16lane r (2 * i) = -32768 ∧
    i16lane l (2 * i + 1) = -32768 ∧ i16lane r (2 * i + 1) = -32768 := by
  have hfst : i16lane l (2 * i) * i16lane r (2 * i) ≤ 1073741824 := (word_product_range l r _).2
  have hsnd : i16lane l (2 * i + 1) * i16lane r (2 * i + 1) ≤ 1073741824 := (word_product_range l r _).2
  rw [groupSum_two, ← and_assoc, ← word_product_eq_max_iff, ← word_product_eq_max_iff]
  omega

/-- Settles O19: each range is G times that of the products, and its ends are reached where all products of the group
are at the same end. -/
theorem groupSumRanges : Obligations.GroupSumRanges :=
  ⟨byte_groupSum_range, word_groupSum_range, word_groupSum_eq_max_iff,
    ⟨0xffffffff#256, 0x80808080#256, by decide⟩, ⟨0xffffffff#256, 0x7f7f7f7f#256, by decide⟩,
    ⟨0x80008000#256, 0x7fff7fff#256, by decide⟩, ⟨0x80008000#256, 0x80008000#256, by decide⟩⟩

/-- The word-lane range holds every group sum: the byte-lane sums are smaller (rule R88). -/
theorem groupSum_source_range (s : Source) (l r : Bus) (i : Nat) :
    -2147418112 ≤ groupSum s.group (leftLane s l) (rightLane s r) i ∧
      groupSum s.group (leftLane s l) (rightLane s r) i ≤ 2147483648 := by
  cases s with
  | byte =>
    obtain ⟨hlo, hhi⟩ := byte_groupSum_range l r i
    exact ⟨le_trans (by decide) hlo, le_trans hhi (by decide)⟩
  | word => exact word_groupSum_range l r i

/-- The exact total of a lane fits in 33 signed bits (rule R90). -/
theorem total_range (s : Source) (a l r : Bus) (i : Nat) :
    -4294901760 ≤ lane32 a i + groupSum s.group (leftLane s l) (rightLane s r) i ∧
      lane32 a i + groupSum s.group (leftLane s l) (rightLane s r) i ≤ 4294967295 := by
  obtain ⟨halo, hahi⟩ := lane32_range a i
  obtain ⟨hslo, hshi⟩ := groupSum_source_range s l r i
  exact ⟨add_le_add halo hslo, add_le_add hahi hshi⟩

/-! ## The final combinations (rules R89, R90, R95) -/

/-- Wrapping the second term of a sum first does not change the wrapped sum (rule R89). -/
@[simp] theorem wrap32_add_wrap32 (x y : Int) : wrap32 (x + wrap32 y) = wrap32 (x + y) := Int.add_bmod_bmod

/-- Wrapping the first term of a sum first does not change the wrapped sum (rule R89). -/
@[simp] theorem wrap32_wrap32_add (x y : Int) : wrap32 (wrap32 x + y) = wrap32 (x + y) := Int.bmod_add_bmod

/-- Both final combinations leave an i32 alone (rules R89, R90). -/
theorem combine_of_range (t : Final) {x : Int} (hlo : int32Min ≤ x) (hhi : x ≤ int32Max) : combine t x = x := by
  cases t with
  | wrap => exact wrap32_of_range hlo hhi
  | sat => exact sat32_of_range hlo hhi

/-- A lane of the result bus, as the final combination of the exact total (rules R89, R90, R92). -/
theorem lane32_wma_eq_combine (o : Op) (a l r : Bus) {i : Nat} (hi : i < o.width.lanes) : lane32 (wma o a l r) i =
    combine o.final (lane32 a i + groupSum o.source.group (leftLane o.source l) (rightLane o.source r) i) :=
  lane32_wma o a l r i hi

/-- Settles O20: the lane wraps the exact total, and a wrapped group sum is in the same residue class. -/
theorem wrappingNeedsNoExactSum : Obligations.WrappingNeedsNoExactSum := by
  intro o a l r i hwrap hi
  have hlane := lane32_wma_eq_combine o a l r hi
  rw [hwrap, combine] at hlane
  exact ⟨hlane, by rw [hlane, wrap32_add_wrap32]⟩

/-- Settles O21. The buses with all words of group 0 at -32768 have a group sum of 2^31, which saturates to the greatest
i32 but wraps to the least one. -/
theorem saturatingNeedsTheExactSum : Obligations.SaturatingNeedsTheExactSum := by
  refine ⟨fun o a l r i hsat hi => ?_, 0#256, 0x80008000#256, 0x80008000#256, by decide⟩
  have hlane := lane32_wma_eq_combine o a l r hi
  rw [hsat, combine] at hlane
  exact ⟨hlane, total_range o.source a l r i⟩

/-- Settles O22: lane by lane, from the definitions of the group sum and the final combination for each S and T; the
packing leaves the bits above the lanes 0. -/
theorem wholeDatapath : Obligations.WholeDatapath := by
  intro o a l r
  refine ⟨fun i hi => ?_, wma_above o a l r _⟩
  rw [lane32_wma_eq_combine o a l r hi]
  obtain ⟨w, s, t⟩ := o
  cases s with
  | byte => cases t <;> rfl
  | word => cases t <;> rfl

/-- Adding terms one by one, wrapping after each addition, wraps their exact sum (rules R89, R95). -/
theorem foldl_wrap32_add (terms : List Int) (acc : Int) :
    terms.foldl (fun acc x => wrap32 (acc + x)) (wrap32 acc) = wrap32 (acc + terms.sum) := by
  induction terms generalizing acc with
  | nil => rw [List.foldl_nil, List.sum_nil, Int.add_zero]
  | cons x xs ih => rw [List.foldl_cons, wrap32_wrap32_add, ih, List.sum_cons, Int.add_assoc]

/-- Settles O26: a permutation keeps the sum, and wrapped additions give the wrapped sum. With the addend -1 and a group
sum of 2^31 the exact total is the greatest i32, which a saturated partial sum misses by one. -/
theorem orderIndependence : Obligations.OrderIndependence := by
  refine ⟨fun t g a l r i terms hperm => ?_, 0xffffffff#256, 0x80008000#256, 0x80008000#256, by decide⟩
  have hsum : terms.sum = a i + groupSum g l r i := by rw [hperm.sum_eq, List.sum_cons, groupSum]
  refine ⟨by rw [hsum, laneResult], ?_⟩
  rintro rfl
  calc terms.foldl (fun acc x => wrap32 (acc + x)) 0
      = wrap32 (0 + terms.sum) := foldl_wrap32_add terms 0
    _ = laneResult .wrap g a l r i := by rw [Int.zero_add, hsum, laneResult, combine]

/-! ## Results without overflow (rules R89, R90) -/

/-- A zero `left` or `right` has no product but 0 (rule R87). -/
theorem product_of_zero (s : Source) {l r : Bus} (h : l = 0#256 ∨ r = 0#256) (j : Nat) :
    product (leftLane s l) (rightLane s r) j = 0 := by
  have hleft : leftLane s 0#256 j = 0 := by cases s <;> simp [leftLane, u8lane, i16lane]
  have hright : rightLane s 0#256 j = 0 := by cases s <;> simp [rightLane, i8lane, i16lane]
  rcases h with rfl | rfl
  · rw [product, hleft, Int.zero_mul]
  · rw [product, hright, Int.mul_zero]

theorem groupSum_of_zero (s : Source) {l r : Bus} (h : l = 0#256 ∨ r = 0#256) (g i : Nat) :
    groupSum g (leftLane s l) (rightLane s r) i = 0 := by
  simp [groupSum, product_of_zero s h]

/-- Settles O27: both combinations leave a total in the i32 range alone, so they agree lane by lane; with a zero operand
the total is the addend lane. -/
theorem saturatingIsWrappingInRange : Obligations.SaturatingIsWrappingInRange := by
  constructor
  · intro w s a l r hrange
    rw [wma, wma]
    congr 1
    refine List.map_congr_left fun i hi => ?_
    obtain ⟨hlo, hhi⟩ := hrange i (List.mem_range.1 hi)
    exact (combine_of_range .sat hlo hhi).trans (combine_of_range .wrap hlo hhi).symm
  · intro o a l r hzero i hi
    obtain ⟨hlo, hhi⟩ := lane32_range a i
    rw [lane32_wma_eq_combine o a l r hi, groupSum_of_zero o.source hzero, Int.add_zero, combine_of_range _ hlo hhi]

/-! ## What a lane depends on (rules R85, R93) -/

/-- Two equal slices of two buses have equal parts at the same offset. -/
theorem extractLsb'_part_congr {b b' : Bus} {i j w : Nat} (h : b.extractLsb' i w = b'.extractLsb' j w) {off n : Nat}
    (hin : off + n ≤ w) : b.extractLsb' (i + off) n = b'.extractLsb' (j + off) n := by
  ext k hk
  have hbit := congrArg (BitVec.getLsbD · (off + k)) h
  have hw : off + k < w := by omega
  simpa [hw, Nat.add_assoc] using hbit

/-- The narrow elements of a group are read from the 32 bits of its lane: 4 bytes or 2 words (rules R63, R85). -/
theorem narrowLanes_congr_of_lane (s : Source) {b b' : Bus} {i j k : Nat}
    (h : b.extractLsb' (32 * i) 32 = b'.extractLsb' (32 * j) 32) (hk : k < s.group) :
    leftLane s b (s.group * i + k) = leftLane s b' (s.group * j + k) ∧
      rightLane s b (s.group * i + k) = rightLane s b' (s.group * j + k) := by
  cases s <;> simp only [Source.group] at hk ⊢
  case byte =>
    have hpart := extractLsb'_part_congr h (show 8 * k + 8 ≤ 32 by omega)
    have hbyte : b.extractLsb' (8 * (4 * i + k)) 8 = b'.extractLsb' (8 * (4 * j + k)) 8 := by
      convert hpart using 2 <;> omega
    simp only [leftLane, rightLane, u8lane, i8lane, hbyte, and_self]
  case word =>
    have hpart := extractLsb'_part_congr h (show 16 * k + 16 ≤ 32 by omega)
    have hword : b.extractLsb' (16 * (2 * i + k)) 16 = b'.extractLsb' (16 * (2 * j + k)) 16 := by
      convert hpart using 2 <;> omega
    simp only [leftLane, rightLane, i16lane, hword, and_self]

/-- Group sums are equal where the lanes that hold the groups are (rules R85, R88). -/
theorem groupSum_congr_of_lane (s : Source) {l l' r r' : Bus} {i j : Nat}
    (hl : l.extractLsb' (32 * i) 32 = l'.extractLsb' (32 * j) 32)
    (hr : r.extractLsb' (32 * i) 32 = r'.extractLsb' (32 * j) 32) :
    groupSum s.group (leftLane s l) (rightLane s r) i = groupSum s.group (leftLane s l') (rightLane s r') j := by
  rw [groupSum, groupSum]
  congr 1
  refine List.map_congr_left fun k hk => ?_
  have hk := List.mem_range.1 hk
  rw [product, product, (narrowLanes_congr_of_lane s hl hk).1, (narrowLanes_congr_of_lane s hr hk).2]

/-- Two lanes of results of either width have the same bits where the operands have the same bits in those lanes (rules
R92, R93). -/
theorem wma_lane_congr (w w' : Width) (s : Source) (t : Final) {a a' l l' r r' : Bus} {i j : Nat} (hi : i < w.lanes)
    (hj : j < w'.lanes) (ha : a.extractLsb' (32 * i) 32 = a'.extractLsb' (32 * j) 32)
    (hl : l.extractLsb' (32 * i) 32 = l'.extractLsb' (32 * j) 32)
    (hr : r.extractLsb' (32 * i) 32 = r'.extractLsb' (32 * j) 32) :
    (wma ⟨w, s, t⟩ a l r).extractLsb' (32 * i) 32 = (wma ⟨w', s, t⟩ a' l' r').extractLsb' (32 * j) 32 := by
  apply BitVec.toInt_inj.1
  calc lane32 (wma ⟨w, s, t⟩ a l r) i
      = combine t (lane32 a i + groupSum s.group (leftLane s l) (rightLane s r) i) := lane32_wma_eq_combine _ a l r hi
    _ = combine t (lane32 a' j + groupSum s.group (leftLane s l') (rightLane s r') j) := by
        rw [lane32, ha, groupSum_congr_of_lane s hl hr, lane32]
    _ = lane32 (wma ⟨w', s, t⟩ a' l' r') j := (lane32_wma_eq_combine ⟨w', s, t⟩ a' l' r' hj).symm

/-- Settles O23: the lane and its group are read from the same 32 bits of the three operands. -/
theorem laneIndependence : Obligations.LaneIndependence :=
  fun ⟨w, s, t⟩ _ _ _ _ _ _ _ hj ha hl hr => wma_lane_congr w w s t hj hj ha hl hr

/-! ## The two halves of a 256-bit operation (rule R94) -/

/-- The lanes of the lower half are lanes 0 to 3. -/
theorem lowHalf_lane (b : Bus) {i : Nat} (hi : i < 4) :
    (lowHalf b).extractLsb' (32 * i) 32 = b.extractLsb' (32 * i) 32 := by
  rw [lowHalf, BitVec.extractLsb'_setWidth_of_le (by omega), BitVec.extractLsb'_extractLsb'_of_le (by omega)]

/-- The lanes of the upper half are lanes 4 to 7. -/
theorem highHalf_lane (b : Bus) {i : Nat} (hi : i < 4) :
    (highHalf b).extractLsb' (32 * i) 32 = b.extractLsb' (32 * (4 + i)) 32 := by
  rw [highHalf, BitVec.extractLsb'_setWidth_of_le (by omega)]
  ext k hk
  have hin : 32 * i + k < 128 := by omega
  simp only [BitVec.getElem_extractLsb', BitVec.getLsbD_extractLsb', hin, decide_true, Bool.true_and]
  congr 1
  omega

/-- Equal lanes make equal slices: bit k of a slice is bit k % 32 of its lane k / 32. -/
theorem slice_eq_of_lanes {b b' : Bus} {i j c : Nat}
    (h : ∀ k < c, b.extractLsb' (32 * (i + k)) 32 = b'.extractLsb' (32 * (j + k)) 32) :
    b.extractLsb' (32 * i) (32 * c) = b'.extractLsb' (32 * j) (32 * c) := by
  ext k hk
  have hbit := congrArg (BitVec.getLsbD · (k % 32)) (h (k / 32) (by omega))
  have hpos (n : Nat) : 32 * (n + k / 32) + k % 32 = 32 * n + k := by omega
  simpa [Nat.mod_lt, hpos] using hbit

/-- Settles O25: each half of the 256-bit result has the lanes of a 128-bit operation on the same half of the
operands. -/
theorem widthIndependence : Obligations.WidthIndependence := by
  intro s t a l r
  have hlow : (wma ⟨.w256, s, t⟩ a l r).extractLsb' 0 128
      = (wma ⟨.w128, s, t⟩ (lowHalf a) (lowHalf l) (lowHalf r)).extractLsb' 0 128 :=
    slice_eq_of_lanes (i := 0) (j := 0) (c := 4) fun k hk => by
      rw [Nat.zero_add]
      exact wma_lane_congr .w256 .w128 s t (Nat.lt_of_lt_of_le hk (by decide)) hk (lowHalf_lane a hk).symm
        (lowHalf_lane l hk).symm (lowHalf_lane r hk).symm
  have hhigh : (wma ⟨.w256, s, t⟩ a l r).extractLsb' 128 128
      = (wma ⟨.w128, s, t⟩ (highHalf a) (highHalf l) (highHalf r)).extractLsb' 0 128 :=
    slice_eq_of_lanes (i := 4) (j := 0) (c := 4) fun k hk => by
      rw [Nat.zero_add]
      exact wma_lane_congr .w256 .w128 s t (Nat.add_lt_add_left hk 4) hk (highHalf_lane a hk).symm
        (highHalf_lane l hk).symm (highHalf_lane r hk).symm
  have hjoin (b : Bus) : b.extractLsb' 128 128 ++ b.extractLsb' 0 128 = b :=
    (BitVec.extractLsb'_append_extractLsb'_eq_extractLsb' rfl).trans BitVec.extractLsb'_eq_self
  rw [← hhigh, ← hlow, hjoin]

/-! ## The value level (rules R25, R92, R114) -/

/-- The result of a call has N elements. -/
theorem Call.result_length (c : Call) : (Call.result c).elems.length = c.op.width.lanes := resultLanes_length ..

/-- The result of a call is a vector of i32 values, for each is a final combination (rules R25, R89, R90). -/
theorem Call.result_inRange (c : Call) : (Call.result c).inRange = true := by
  rw [TypedVec.inRange_iff]
  intro x hx
  obtain ⟨i, -, rfl⟩ := List.mem_map.1 hx
  exact combine_range c.op.final _

/-- Settles O51: `resultVec_request` for the lanes; the status is the gate's. -/
theorem busMeetsValueLevel : Obligations.BusMeetsValueLevel := fun c h =>
  ⟨rfl, resultVec_request h, Call.result_length c, Call.result_inRange c, rfl⟩

end Sys2Proof.Machine
end

section
/-! PROOFS. The four wrapping operations (42_multiply_widening_add.md): an operation's response in both states of the
gate (R111), a result lane with the products of its group written out (R85, R92), and each operation put together from
these (R100 to R103). -/

namespace Sys2Proof.Machine

/-! ## Executing an instruction (rules R43, R111) -/

/-- With the gate true the response is OK and holds what the datapath makes of the instruction's buses. -/
theorem exec_of_supported (i : Instr) {s : State} (h : s.capSupported = true) :
    exec i s = .next { s with delivered := s.delivered ++
      [⟨statusOk, wma i.op (encode i).addend (encode i).left (encode i).right⟩] } := by
  rw [exec_eq_response, h, response, if_pos rfl, decodeOp_encode_op]

/-- With the gate false the response is the fault, whatever the instruction. -/
theorem exec_of_unsupported (i : Instr) {s : State} (h : s.capSupported = false) :
    exec i s = .next { s with delivered := s.delivered ++ [⟨statusUnsupported, 0#256⟩] } := by
  rw [exec_eq_response, h, response, if_neg Bool.false_ne_true]

/-- The two answers of the gate for an instruction whose datapath result has a property. -/
theorem exec_gated (i : Instr) (s : State) {P : Bus → Prop}
    (hresult : P (wma i.op (encode i).addend (encode i).left (encode i).right)) :
    (s.capSupported = true → ∃ res : Bus,
      exec i s = .next { s with delivered := s.delivered ++ [⟨statusOk, res⟩] } ∧ P res) ∧
    (s.capSupported = false →
      exec i s = .next { s with delivered := s.delivered ++ [⟨statusUnsupported, 0#256⟩] }) :=
  ⟨fun h => ⟨_, exec_of_supported i h, hresult⟩, exec_of_unsupported i⟩

/-! ## The result lanes of each source (rules R85, R92) -/

/-- A byte-lane operation combines the addend lane with the four products of the group. -/
theorem lane32_wma_byte (w : Width) (t : Final) (a l r : Bus) {i : Nat} (hi : i < w.lanes) :
    lane32 (wma ⟨w, .byte, t⟩ a l r) i = combine t (lane32 a i
      + (u8lane l (4 * i) * i8lane r (4 * i) + u8lane l (4 * i + 1) * i8lane r (4 * i + 1)
        + u8lane l (4 * i + 2) * i8lane r (4 * i + 2) + u8lane l (4 * i + 3) * i8lane r (4 * i + 3))) := by
  rw [← groupSum_four]
  exact lane32_wma_eq_combine ⟨w, .byte, t⟩ a l r hi

/-- A word-lane operation combines the addend lane with the two products of the group. -/
theorem lane32_wma_word (w : Width) (t : Final) (a l r : Bus) {i : Nat} (hi : i < w.lanes) :
    lane32 (wma ⟨w, .word, t⟩ a l r) i = combine t (lane32 a i
      + (i16lane l (2 * i) * i16lane r (2 * i) + i16lane l (2 * i + 1) * i16lane r (2 * i + 1))) := by
  rw [← groupSum_two]
  exact lane32_wma_eq_combine ⟨w, .word, t⟩ a l r hi

/-- A 128-bit operation leaves the upper half of the result bus 0 (rule R29). -/
theorem wma_upper_half (s : Source) (t : Final) (a l r : Bus) :
    (wma ⟨.w128, s, t⟩ a l r).extractLsb' 128 128 = 0#128 :=
  wma_above ⟨.w128, s, t⟩ a l r 128

/-! ## The four operations (rules R100 to R103) -/

/-- Settles O8: the row of the opcode map, then the gate, with the upper half and the lanes of the byte-lane datapath. -/
theorem mwaddB128Result : Obligations.MwaddB128Result :=
  ⟨fun a l r => decode_encode (.mwaddB128 a l r), fun a l r s => exec_gated (.mwaddB128 a l r) s
    ⟨wma_upper_half .byte .wrap a l r, fun _ hi => lane32_wma_byte .w128 .wrap a l r hi⟩⟩

/-- Settles O9: the row of the opcode map, then the gate, with the upper half and the lanes of the word-lane datapath. -/
theorem mwaddW128Result : Obligations.MwaddW128Result :=
  ⟨fun a l r => decode_encode (.mwaddW128 a l r), fun a l r s => exec_gated (.mwaddW128 a l r) s
    ⟨wma_upper_half .word .wrap a l r, fun _ hi => lane32_wma_word .w128 .wrap a l r hi⟩⟩

/-- Settles O10: the row of the opcode map, then the gate, with the byte lanes that fill the bus. -/
theorem mwaddB256Result : Obligations.MwaddB256Result :=
  ⟨fun a l r => decode_encode (.mwaddB256 a l r), fun a l r s => exec_gated (.mwaddB256 a l r) s
    fun _ hi => lane32_wma_byte .w256 .wrap a l r hi⟩

/-- Settles O11: the row of the opcode map, then the gate, with the word lanes that fill the bus. -/
theorem mwaddW256Result : Obligations.MwaddW256Result :=
  ⟨fun a l r => decode_encode (.mwaddW256 a l r), fun a l r s => exec_gated (.mwaddW256 a l r) s
    fun _ hi => lane32_wma_word .w256 .wrap a l r hi⟩

end Sys2Proof.Machine
end

section
/-! PROOFS. The four saturating operations (43_multiply_widening_add_saturate.md). They go through the gate and the lanes
of `lane32_wma_byte` and `lane32_wma_word` as the wrapping ones do; the final combination clamps the exact total of the
addend lane and all products of its group, once (R90). -/

namespace Sys2Proof.Machine

/-! ## The result lanes of the saturating operations (rules R85, R90, R92) -/

/-- The clamp applies to the addend lane plus the exact sum of the four byte products. -/
theorem lane32_wma_byte_sat (w : Width) (a l r : Bus) {i : Nat} (hi : i < w.lanes) :
    lane32 (wma ⟨w, .byte, .sat⟩ a l r) i = sat32 (lane32 a i
      + (u8lane l (4 * i) * i8lane r (4 * i) + u8lane l (4 * i + 1) * i8lane r (4 * i + 1)
        + u8lane l (4 * i + 2) * i8lane r (4 * i + 2) + u8lane l (4 * i + 3) * i8lane r (4 * i + 3))) := by
  rw [lane32_wma_byte w .sat a l r hi, combine]

/-- The clamp applies to the addend lane plus the exact sum of the two word products, which can be 2^31. -/
theorem lane32_wma_word_sat (w : Width) (a l r : Bus) {i : Nat} (hi : i < w.lanes) :
    lane32 (wma ⟨w, .word, .sat⟩ a l r) i = sat32 (lane32 a i
      + (i16lane l (2 * i) * i16lane r (2 * i) + i16lane l (2 * i + 1) * i16lane r (2 * i + 1))) := by
  rw [lane32_wma_word w .sat a l r hi, combine]

/-! ## The four operations (rules R104 to R107) -/

/-- Settles O12: the row of the opcode map, then the gate, with the upper half and the four clamped byte-lane totals. -/
theorem mwaddsB128Result : Obligations.MwaddsB128Result :=
  ⟨fun a l r => decode_encode (.mwaddsB128 a l r), fun a l r s => exec_gated (.mwaddsB128 a l r) s
    ⟨wma_upper_half .byte .sat a l r, fun _ hi => lane32_wma_byte_sat .w128 a l r hi⟩⟩

/-- Settles O13: the row of the opcode map, then the gate, with the upper half and the four clamped word-lane totals. -/
theorem mwaddsW128Result : Obligations.MwaddsW128Result :=
  ⟨fun a l r => decode_encode (.mwaddsW128 a l r), fun a l r s => exec_gated (.mwaddsW128 a l r) s
    ⟨wma_upper_half .word .sat a l r, fun _ hi => lane32_wma_word_sat .w128 a l r hi⟩⟩

/-- Settles O14: the row of the opcode map, then the gate, with the eight clamped byte-lane totals that fill the bus. -/
theorem mwaddsB256Result : Obligations.MwaddsB256Result :=
  ⟨fun a l r => decode_encode (.mwaddsB256 a l r), fun a l r s => exec_gated (.mwaddsB256 a l r) s
    fun _ hi => lane32_wma_byte_sat .w256 a l r hi⟩

/-- Settles O15: the row of the opcode map, then the gate, with the eight clamped word-lane totals that fill the bus. -/
theorem mwaddsW256Result : Obligations.MwaddsW256Result :=
  ⟨fun a l r => decode_encode (.mwaddsW256 a l r), fun a l r s => exec_gated (.mwaddsW256 a l r) s
    fun _ hi => lane32_wma_word_sat .w256 a l r hi⟩

end Sys2Proof.Machine
end

section
/-! PROOFS. The one exception (60_exceptions.md): the gate decides between the fault and the datapath (R111), no
repetition of a request gets past it (R113), a step executes the head of Q, and a value-level call is refused for the
cases of rule R114 alone. -/

namespace Sys2Proof.Machine

/-! ## Executing a request (rule R111) -/

/-- Settles O28: with the gate false the response is one constant, with the gate true it is F of the request. -/
theorem executeGatedRequest : Obligations.ExecuteGatedRequest := by
  refine fun i s => ⟨exec_of_unsupported i, fun hcap => ?_⟩
  rw [exec_of_supported i hcap, decodeOp_encode_op, statusOk]

/-! ## A step that takes the head's response (rules R70, R111) -/

/-- Behind a head, a request is accepted only if Q has room for it beside the head. -/
theorem State.accepts_of_head {s : State} {r : Request} {rest : List Request} (p : Params) (inp : PortIn)
    (hreset : s.inReset = false) (hq : s.q = r :: rest) :
    s.accepts p inp = (inp.reqValid && decide (rest.length + 1 < p.maxInflight)) := by
  rw [State.accepts, State.reqReady, hreset, hq, List.length_cons, Bool.not_false, Bool.true_and]

/-- A head that leaves makes the next request the head; an accepted request comes last. -/
theorem State.nextQ_of_head_taken {s : State} {r : Request} {rest : List Request} (p : Params) (inp : PortIn)
    (hq : s.q = r :: rest) : s.nextQ p inp true = rest ++ (if s.accepts p inp then [inp.req] else []) := by
  rw [State.nextQ, if_pos rfl, hq, List.tail_cons]

/-- After a head has left, the new head draws its wait, and there is none if no request is left or accepted. -/
theorem State.nextWait_of_head_taken {s : State} {r : Request} {rest : List Request} (p : Params) (inp : PortIn)
    (hq : s.q = r :: rest) :
    s.nextWait p inp true = if rest = [] ∧ ¬s.accepts p inp = true then 0 else p.rspLatency s.draws := by
  rw [State.nextWait, State.nextQ_of_head_taken p inp hq]
  cases rest <;> cases s.accepts p inp <;> simp

/-- At an edge that takes the response of a head whose wait is over, the head's instruction is executed, and then Q
and the port's bookkeeping move on. -/
theorem clockEdge_executes_head (p : Params) {inp : PortIn} {s : State} {r : Request} {rest : List Request}
    (hstable : s.stable inp = true) (hreset : s.inReset = false) (hrst : inp.rst = false)
    (hready : inp.rspReady = true) (hq : s.q = r :: rest) (hwait : s.rspWait = 0) :
    ∃ t : State, exec (decode r) s = .next t ∧ clockEdge p inp s = .next (t.endEdge p inp true) := by
  have hvalid : s.rspValid = true := State.rspValid_of_due hreset hq hwait
  have hdelivers : s.delivers inp = true := by rw [State.delivers, hvalid, hready, Bool.true_and]
  refine ⟨_, exec_decode r s, ?_⟩
  rw [clockEdge_eq p inp s hstable, State.settle_running hrst hreset, hdelivers, if_pos rfl,
    State.rspData_of_valid p hvalid hq]

/-- Executing an instruction changes the delivered responses alone. -/
theorem exec_next_fields {i : Instr} {s t : State} (h : exec i s = .next t) :
    t.q = s.q ∧ t.inReset = s.inReset ∧ t.draws = s.draws := by
  rw [exec_eq_response] at h
  cases h
  exact ⟨rfl, rfl, rfl⟩

/-- The end of an edge at which the head leaves, in the terms of the port: Q, the wait, the record of an unaccepted
request and the free-value index. -/
theorem State.endEdge_of_head_taken {s : State} {r : Request} {rest : List Request} (p : Params) (inp : PortIn)
    (hreset : s.inReset = false) (hq : s.q = r :: rest) :
    s.endEdge p inp true = { s with
      q := rest ++ (if inp.reqValid && decide (rest.length + 1 < p.maxInflight) then [inp.req] else [])
      rspWait := if rest = [] ∧ ¬(inp.reqValid = true ∧ rest.length + 1 < p.maxInflight) then 0
        else p.rspLatency s.draws
      held := if inp.reqValid && !decide (rest.length + 1 < p.maxInflight) then some inp.req else none
      draws := s.draws + 1 } := by
  have hheld : (inp.reqValid && !(inp.reqValid && decide (rest.length + 1 < p.maxInflight))) =
      (inp.reqValid && !decide (rest.length + 1 < p.maxInflight)) := by cases inp.reqValid <;> rfl
  rw [State.endEdge, State.nextQ_of_head_taken p inp hq, State.nextWait_of_head_taken p inp hq,
    State.accepts_of_head p inp hreset hq, hheld]
  simp only [Bool.and_eq_true, decide_eq_true_eq]

/-- Settles O37: the step is one edge, which executes the head and then ends as an edge at which the head leaves. -/
theorem stepRunsTheHeadOfQueue : Obligations.StepRunsTheHeadOfQueue := by
  intro s e es r rest hinputs hrst hready hreset hq hwait hstable
  obtain ⟨t, hexec, hedge⟩ := clockEdge_executes_head Config.chip (s := { s with inputs := es })
    hstable hreset hrst hready hq hwait
  obtain ⟨htq, htreset, htdraws⟩ := exec_next_fields hexec
  refine ⟨t, hexec, ?_⟩
  rw [step_edge hinputs, hedge, State.endEdge_of_head_taken Config.chip e (htreset.trans hreset) (htq.trans hq),
    htdraws]
  rfl

/-! ## The requests a run answers (rules R43, R45, R113) -/

/-- An edge answers the requests that leave Q, at most one, and those that stay are followed by the one it accepts. -/
theorem clockEdge_answers_in_order {p : Params} {inp : PortIn} {s t : State} (hr : s.inReset = false)
    (hrst : inp.rst = false) (h : clockEdge p inp s = .next t) :
    ∃ done : List Request, t.delivered = s.delivered ++ done.map (response s.capSupported) ∧
      s.q ++ (if s.accepts p inp then [inp.req] else []) = done ++ t.q := by
  obtain ⟨-, -, hq, hdel⟩ := clockEdge_running_fields hr hrst h
  rw [State.nextQ] at hq
  cases hd : s.delivers inp with
  | false =>
    rw [hd] at hq hdel
    exact ⟨[], hdel, hq.symm⟩
  | true =>
    obtain ⟨r, rest, hhead, hrsp⟩ := State.delivers_head p hd
    rw [hd, hhead] at hq
    rw [hd, hrsp] at hdel
    exact ⟨[r], hdel, by rw [hhead, hq]; rfl⟩

/-- A run answers, in order, a first part of the requests in Q at its start followed by those it accepts; the others
are in Q at its end. -/
theorem runEdges_answers_in_order {p : Params} {es : List PortIn} {s t : State} (hr : s.inReset = false)
    (hrst : ∀ e ∈ es, e.rst = false) (h : runEdges p es s = .next t) :
    ∃ done : List Request, t.delivered = s.delivered ++ done.map (response s.capSupported) ∧
      s.q ++ acceptedRequests p es s = done ++ t.q := by
  induction es generalizing s with
  | nil =>
    cases h
    exact ⟨[], by simp, by simp [acceptedRequests]⟩
  | cons inp es ih =>
    obtain ⟨hinp, hes⟩ := List.forall_mem_cons.1 hrst
    obtain ⟨u, hedge, hrest⟩ := runEdges_cons_next h
    obtain ⟨hcap, hr', -, -⟩ := clockEdge_running_fields hr hinp hedge
    obtain ⟨first, hfirst, hfirstq⟩ := clockEdge_answers_in_order hr hinp hedge
    obtain ⟨more, hmore, hmoreq⟩ := ih hr' hes hrest
    refine ⟨first ++ more, ?_, ?_⟩
    · rw [hmore, hcap, hfirst, List.map_append, List.append_assoc]
    · rw [acceptedRequests_cons es hedge, ← List.append_assoc, hfirstq, List.append_assoc, hmoreq, List.append_assoc]

/-- With the gate false F is constant: the fault, with the result bus zero (rules R43, R111). -/
theorem response_of_unsupported : response false = fun _ => ⟨1#1, 0#256⟩ := rfl

/-- Settles O31: the run answers a first part of its requests with F, which is the one fault as long as CAPS.SUPPORTED,
which the run keeps, is 0. -/
theorem noRetryHelps : Obligations.NoRetryHelps := by
  intro p es s t hr hcap hrst hrun
  obtain ⟨done, hdelivered, hrequests⟩ := runEdges_answers_in_order hr hrst hrun
  obtain ⟨hcaps, -⟩ := runEdges_running_caps hr hrst hrun
  have htcap : t.capSupported = false := (State.capSupported_congr hcaps).trans hcap
  rw [hcap, response_of_unsupported] at hdelivered
  refine ⟨_, hdelivered, ?_, ?_, by rw [State.owed, htcap, response_of_unsupported]⟩
  · rw [hrequests, List.length_map, List.take_left]
  · rw [hrequests, List.length_map, List.drop_left]

end Sys2Proof.Machine

namespace Sys2Proof

/-! ## Value-level calls (rules R25, R26, R114) -/

/-- The ranges of the four element types, written out (rules R9, R11). -/
theorem TypedVec.inRange_iff_of_each_type (v : TypedVec) : v.inRange = true ↔ ∀ x ∈ v.elems,
    (v.elem = .u8 → 0 ≤ x ∧ x ≤ 255) ∧ (v.elem = .i8 → -128 ≤ x ∧ x ≤ 127) ∧
    (v.elem = .i16 → -32768 ≤ x ∧ x ≤ 32767) ∧ (v.elem = .i32 → -2147483648 ≤ x ∧ x ≤ 2147483647) := by
  rw [TypedVec.inRange_iff]
  cases v.elem <;> simp [Elem.least, Elem.greatest]

/-- The operand types of each source, written out (rule R25). -/
theorem Call.typesOk_iff_of_each_source (c : Call) : c.typesOk = true ↔ c.addend.elem = .i32 ∧
    (c.op.source = .byte → c.left.elem = .u8 ∧ c.right.elem = .i8) ∧
    (c.op.source = .word → c.left.elem = .i16 ∧ c.right.elem = .i16) := by
  rw [Call.typesOk_iff]
  cases c.op.source <;> simp [Source.leftElem, Source.rightElem]

/-- Every operand is checked against its own element type (rule R114). -/
theorem Call.rangesOk_iff_forall (c : Call) :
    c.rangesOk = true ↔ ∀ v ∈ [c.addend, c.left, c.right], v.inRange = true := by
  rw [Call.rangesOk_iff]
  simp

namespace Machine

/-- Wrong counts are refused first (rule R114, log 16). -/
theorem Call.run_of_counts (g : Bool) {c : Call} (h : c.countsOk = false) :
    Call.run g c = .refused .laneCount := by
  rw [Call.run, h]
  rfl

/-- An element out of its range is refused next (rule R114, log 16). -/
theorem Call.run_of_ranges (g : Bool) {c : Call} (hcounts : c.countsOk = true) (h : c.rangesOk = false) :
    Call.run g c = .refused .elementRange := by
  rw [Call.run, hcounts, h]
  rfl

/-- An operand of another type is refused last (rule R114, log 16). -/
theorem Call.run_of_types (g : Bool) {c : Call} (hcounts : c.countsOk = true) (hranges : c.rangesOk = true)
    (h : c.typesOk = false) : Call.run g c = .refused .elementType := by
  rw [Call.run, hcounts, hranges, h]
  rfl

/-- Settles O50: the checks with the tables of ranges and types written out, one outcome for the first check that
fails, and the gate alone where none does, as for the call of any request. -/
theorem valueCallOutcomes : Obligations.ValueCallOutcomes := by
  refine ⟨fun c => ⟨c.countsOk_iff, ?_, c.typesOk_iff_of_each_source, c.wf_iff⟩, fun g c =>
    ⟨Call.run_of_counts g, Call.run_of_ranges g, Call.run_of_types g,
      fun hwf => ⟨Call.run_of_wf false hwf, Call.run_of_wf true hwf⟩⟩, requestCall_wf⟩
  rw [Call.rangesOk_iff_forall]
  exact forall₂_congr fun v _ => v.inRange_iff_of_each_type

end Machine

end Sys2Proof
end

section
/-! PROOFS. Reset and the promises of the port (70_reset_and_hazards.md): reset asserted and released (R130, R131), the
host's duty of R134, the finite answer to every request (R137), and a host that takes no responses (R138). -/

namespace Sys2Proof.Machine

/-! ## The port in reset and with an empty Q (rules R30, R70) -/

/-- In reset the engine is not ready (rule R30). -/
theorem State.reqReady_of_inReset (p : Params) {s : State} (h : s.inReset = true) : s.reqReady p = false := by
  rw [State.reqReady, h, Bool.not_true, Bool.false_and]

/-- An empty Q always has room, since `MAX_INFLIGHT` is at least 1 (rule R6). -/
theorem State.reqReady_of_q_nil (p : Params) {s : State} (hreset : s.inReset = false) (hq : s.q = []) :
    s.reqReady p = true :=
  (s.reqReady_iff p).2 ⟨hreset, by rw [hq]; exact Nat.succ_pos _⟩

/-- With Q empty no response is on offer (rule R70). -/
theorem State.rspValid_of_q_nil {s : State} (h : s.q = []) : s.rspValid = false := by
  simp [State.rspValid, h]

/-- Nothing is delivered where no response is on offer (rule R70). -/
theorem State.delivers_of_not_valid (inp : PortIn) {s : State} (h : s.rspValid = false) :
    s.delivers inp = false := by
  rw [State.delivers, h, Bool.false_and]

/-- An edge delivers nothing and loses no request if Q is empty once the level of `rst` is settled. -/
theorem clockEdge_of_settled_q_nil {p : Params} {inp : PortIn} {s t : State} (hq : (s.settle p inp).q = [])
    (ht : clockEdge p inp s = .next t) :
    t.delivered = s.delivered ∧ t.q = (s.settle p inp).nextQ p inp false := by
  obtain ⟨-, -, htq, -, -, -, -, htdelivered⟩ := clockEdge_fields ht
  rw [State.delivers_of_not_valid inp (State.rspValid_of_q_nil hq)] at htq htdelivered
  exact ⟨by simpa using htdelivered, htq⟩

/-! ## Reset asserted and released (rules R130, R131) -/

/-- Settles O33: the edge acts on a state in reset with Q empty, where nothing is accepted or delivered. -/
theorem resetAssertion : Obligations.ResetAssertion := by
  intro p inp s hrst
  have hreset : (s.settle p inp).inReset = true := by rw [State.settle_inReset, hrst]
  have hq : (s.settle p inp).q = [] := by rw [State.settle_rst hrst, State.assertReset_q]
  refine ⟨State.reqReady_of_inReset p hreset, State.rspValid_of_q_nil hq, hq, hreset, fun hstable => ?_⟩
  obtain ⟨t, ht⟩ := clockEdge_answers p hstable
  obtain ⟨-, htreset, -⟩ := clockEdge_fields ht
  obtain ⟨htdelivered, htq⟩ := clockEdge_of_settled_q_nil hq ht
  rw [hreset] at htreset
  rw [State.nextQ_of_inReset p inp false hreset hq] at htq
  exact ⟨t, ht, htq, htreset, htdelivered, State.reqReady_of_inReset p htreset, State.rspValid_of_q_nil htq⟩

/-- Where no request is offered and none leaves, Q stays (rule R70). -/
theorem State.nextQ_of_no_offer (p : Params) {inp : PortIn} (s : State) (h : inp.reqValid = false) :
    s.nextQ p inp false = s.q := by
  simp [State.nextQ, State.accepts, h]

/-- Settles O34: the release loads CAPS from the straps and keeps the empty Q; an engine out of reset does not read the
straps. -/
theorem resetRelease : Obligations.ResetRelease := by
  refine ⟨fun p inp s hreset hq hrst => ?_, fun p inp s hreset hrst => ?_⟩
  · have hsettle := State.settle_release (p := p) hrst hreset
    have hsq : (s.settle p inp).q = [] := by rw [hsettle, State.release_q, hq]
    have hsreset : (s.settle p inp).inReset = false := by rw [State.settle_inReset, hrst]
    have hscaps : (s.settle p inp).caps = capsWord inp.strapCapSupported inp.strapCapX64 := by
      rw [hsettle, State.release_caps]
    refine ⟨State.capSupported_of_caps hscaps, State.capX64_of_caps hscaps, State.reqReady_of_q_nil p hsreset hsq,
      State.rspValid_of_q_nil hsq, fun hstable => ?_⟩
    obtain ⟨t, ht⟩ := clockEdge_answers p hstable
    obtain ⟨htcaps, htreset, -⟩ := clockEdge_fields ht
    obtain ⟨htdelivered, htq⟩ := clockEdge_of_settled_q_nil hsq ht
    rw [hsreset] at htreset
    refine ⟨t, ht, htreset, htcaps.trans hscaps, htdelivered, fun hoffer => ?_⟩
    rw [State.nextQ_of_no_offer p _ hoffer, hsq] at htq
    exact ⟨htq, State.reqReady_of_q_nil p htreset htq, State.rspValid_of_q_nil htq⟩
  · rw [outputsAt, State.settle_running hrst hreset]
    exact ⟨rfl, rfl, fun t ht => (clockEdge_running_caps hreset hrst ht).1⟩

/-! ## The host's duty (rule R134) -/

/-- An edge is unstable exactly when a request is held and the edge does not offer that request. -/
theorem State.stable_eq_false_iff {inp : PortIn} {s : State} :
    s.stable inp = false ↔ ∃ r : Request, s.held = some r ∧ ¬(inp.reqValid = true ∧ inp.req = r) := by
  rw [State.stable]
  cases s.held <;> simp

/-- The refusal of an edge tells exactly of an unstable offer. -/
theorem clockEdge_refused_iff {p : Params} {inp : PortIn} {s : State} :
    clockEdge p inp s = .refused .unstableRequest ↔ s.stable inp = false := by
  refine ⟨fun h => ?_, clockEdge_unstable p inp s⟩
  by_contra hstable
  obtain ⟨t, ht⟩ := clockEdge_answers p (Bool.not_eq_false _ ▸ hstable)
  rw [ht] at h
  cases h

/-- The request an edge leaves held is the one offered to an engine that is not ready. -/
theorem clockEdge_held {p : Params} {inp : PortIn} {s t : State} (h : clockEdge p inp s = .next t) :
    t.held = if inp.reqValid && !(outputsAt p inp s).reqReady then some inp.req else none := by
  obtain ⟨-, -, -, -, hheld, -⟩ := clockEdge_fields h
  have hoffer : (inp.reqValid && !(s.settle p inp).accepts p inp) =
      (inp.reqValid && !(outputsAt p inp s).reqReady) := by
    rw [State.accepts, outputsAt, State.outputs]
    cases inp.reqValid <;> rfl
  rwa [hoffer] at hheld

/-- Settles O41: the edge leaves its request held exactly if it is offered and not accepted, and the next edge is
refused exactly if it does not keep a held request. -/
theorem requestStabilityDuty : Obligations.RequestStabilityDuty := by
  intro p e1 e2 s t ht
  have hheld := clockEdge_held ht
  refine ⟨fun hvalid hready => ?_, fun hfree => ?_⟩
  · have hsome : t.held = some e1.req := by simpa [hvalid, hready] using hheld
    have hunstable : t.stable e2 = false ↔ ¬(e2.reqValid = true ∧ e2.req = e1.req) := by
      rw [State.stable_eq_false_iff, hsome]
      simp
    refine ⟨clockEdge_refused_iff.trans hunstable, fun hvalid2 hreq2 => clockEdge_answers p ?_⟩
    simpa [hvalid2, hreq2] using hunstable
  · have hnone : t.held = none := by
      rcases hfree with hvalid | hready
      · simpa [hvalid] using hheld
      · simpa [hready] using hheld
    exact clockEdge_answers p (t.stable_of_held_none e2 hnone)

/-- Settles O42: a step without an edge answers the same state, and one with an edge answers or tells of an unstable
offer. -/
theorem engineNeverStopsItself : Obligations.EngineNeverStopsItself := by
  intro s
  cases hin : s.inputs with
  | nil => exact .inl ⟨s, step_idle hin⟩
  | cons e es =>
    rw [step_edge hin]
    cases hstable : State.stable e { s with inputs := es } with
    | true => exact .inl (clockEdge_answers _ hstable)
    | false =>
      obtain ⟨r, hheld, hchanged⟩ := State.stable_eq_false_iff.1 hstable
      exact .inr ⟨clockEdge_unstable _ _ _ hstable, e, es, r, rfl, hheld, hchanged⟩

/-- Settles O49: an offer to a ready engine is accepted, which puts it at the end of Q and holds nothing. -/
theorem offeredWhileReadyIsAccepted : Obligations.OfferedWhileReadyIsAccepted := by
  intro p inp s hstable hvalid hready
  obtain ⟨t, ht⟩ := clockEdge_answers p hstable
  obtain ⟨-, -, htq, -⟩ := clockEdge_fields ht
  have hacc : (s.settle p inp).accepts p inp = true := Bool.and_eq_true_iff.2 ⟨hvalid, hready⟩
  rw [State.nextQ, hacc, if_pos rfl] at htq
  exact ⟨t, _, ht, htq, by simpa [hready] using clockEdge_held ht⟩

/-! ## The head is answered (rule R137) -/

/-- The head `r` of Q at `s` is answered by `t`, at the edge at which its wait is over: its response alone is delivered,
the requests `rest` behind it stay in front of those accepted meanwhile, and the next head draws its wait. -/
structure HeadAnswered (p : Params) (r : Request) (rest : List Request) (s t : State) : Prop where
  caps : t.caps = s.caps
  inReset : t.inReset = false
  delivered : t.delivered = s.delivered ++ [response s.capSupported r]
  q : ∃ more : List Request, t.q = rest ++ more
  rspWait : t.q ≠ [] → t.rspWait = p.rspLatency (s.draws + s.rspWait)
  draws : t.draws = s.draws + s.rspWait + 1

/-- An edge that takes the response of a head whose wait is over answers the head. -/
theorem clockEdge_answers_head {p : Params} {inp : PortIn} {s t : State} {r : Request} {rest : List Request}
    (hreset : s.inReset = false) (hrst : inp.rst = false) (hready : inp.rspReady = true) (hq : s.q = r :: rest)
    (hwait : s.rspWait = 0) (ht : clockEdge p inp s = .next t) : HeadAnswered p r rest s t := by
  have hvalid : s.rspValid = true := State.rspValid_of_due hreset hq hwait
  have hdelivers : s.delivers inp = true := by rw [State.delivers, hvalid, hready, Bool.true_and]
  obtain ⟨hcaps, htreset, htq, htwait, -, -, htdraws, htdelivered⟩ := clockEdge_fields ht
  rw [State.settle_running hrst hreset] at hcaps htreset htq htwait htdelivered
  rw [hdelivers] at htq htwait htdelivered
  rw [if_pos rfl, State.rspData_of_valid p hvalid hq] at htdelivered
  refine ⟨hcaps, htreset.trans hreset, htdelivered, ⟨_, htq.trans (State.nextQ_of_head_taken p inp hq)⟩,
    fun hne => ?_, by rw [htdraws, hwait]⟩
  have hnext : (s.nextQ p inp true).isEmpty = false := by simpa [htq] using hne
  simpa [State.nextWait, hnext, hwait] using htwait

/-- While the head's wait runs, an edge without reset delivers nothing, keeps Q in front of what it accepts, and brings
the end of the wait one edge nearer. -/
theorem clockEdge_waits {p : Params} {inp : PortIn} {s t : State} {r : Request} {rest : List Request} {w : Nat}
    (hreset : s.inReset = false) (hrst : inp.rst = false) (hq : s.q = r :: rest) (hwait : s.rspWait = w + 1)
    (ht : clockEdge p inp s = .next t) :
    t.caps = s.caps ∧ t.inReset = false ∧ t.delivered = s.delivered ∧ t.rspWait = w ∧ t.draws = s.draws + 1 ∧
      ∃ more : List Request, t.q = r :: (rest ++ more) := by
  have hinvalid : s.rspValid = false := by simp [State.rspValid, hwait]
  obtain ⟨hcaps, htreset, htq, htwait, -, -, htdraws, htdelivered⟩ := clockEdge_fields ht
  rw [State.settle_running hrst hreset] at hcaps htreset htq htwait htdelivered
  rw [State.delivers_of_not_valid inp hinvalid] at htq htwait htdelivered
  rw [State.nextWait_of_head_kept p inp hq, hwait] at htwait
  rw [State.nextQ, hq] at htq
  exact ⟨hcaps, htreset.trans hreset, by simpa using htdelivered, htwait, htdraws, _, htq⟩

/-- A run of as many edges as the head waits, and one more, answers the head, by induction on the wait. -/
theorem runEdges_answers_head {p : Params} {es : List PortIn} {s t : State} {r : Request} {rest : List Request}
    (hreset : s.inReset = false) (hq : s.q = r :: rest) (htakes : alwaysTakes es) (hlen : es.length = s.rspWait + 1)
    (hrun : runEdges p es s = .next t) : HeadAnswered p r rest s t := by
  induction es generalizing s rest with
  | nil => cases hlen
  | cons inp es ih =>
    obtain ⟨⟨hrst, hready⟩, htakes'⟩ := List.forall_mem_cons.1 htakes
    obtain ⟨u, hedge, hrest⟩ := runEdges_cons_next hrun
    have hlen' : es.length = s.rspWait := Nat.succ_inj.1 hlen
    cases hwait : s.rspWait with
    | zero =>
      obtain rfl : es = [] := List.length_eq_zero_iff.1 (hlen'.trans hwait)
      cases hrest
      exact clockEdge_answers_head hreset hrst hready hq hwait hedge
    | succ w =>
      obtain ⟨hcaps, hureset, hdelivered, huwait, hdraws, more, huq⟩ := clockEdge_waits hreset hrst hq hwait hedge
      have hlast : u.draws + u.rspWait = s.draws + s.rspWait := by omega
      have hu := ih hureset huq htakes' (by omega) hrest
      obtain ⟨more', htq⟩ := hu.q
      exact
        { caps := hu.caps.trans hcaps
          inReset := hu.inReset
          delivered := by rw [hu.delivered, hdelivered, State.capSupported_congr hcaps]
          q := ⟨more ++ more', by rw [htq, List.append_assoc]⟩
          rspWait := fun hne => by rw [hu.rspWait hne, hlast]
          draws := by rw [hu.draws, hlast] }

/-- Settles O46: the head is answered, and its response alone is delivered. -/
theorem headAnsweredAfterItsWait : Obligations.HeadAnsweredAfterItsWait :=
  fun _ _ _ _ _ _ hreset hq htakes hlen hrun => (runEdges_answers_head hreset hq htakes hlen hrun).delivered

/-! ## Every request in Q is answered (rule R137) -/

/-- The edges in which a host that takes every response gets those of the given requests, where the first still waits
`wait` edges and the next free value is that of index `draws`. -/
def edgesToAnswer (p : Params) : List Request → Nat → Nat → Nat
  | [], _, _ => 0
  | _ :: rest, wait, draws => (wait + 1) + edgesToAnswer p rest (p.rspLatency (draws + wait)) (draws + wait + 1)

/-- A run along two lists of edges is a run along the first and then one along the second. -/
theorem runEdges_append_next {p : Params} {as bs : List PortIn} {s t : State}
    (h : runEdges p (as ++ bs) s = .next t) :
    ∃ u : State, runEdges p as s = .next u ∧ runEdges p bs u = .next t := by
  induction as generalizing s with
  | nil => exact ⟨s, rfl, h⟩
  | cons inp as ih =>
    obtain ⟨v, hedge, hrest⟩ := runEdges_cons_next h
    obtain ⟨u, hu, ht⟩ := ih hrest
    exact ⟨u, by rw [runEdges, hedge]; exact hu, ht⟩

/-- The first requests in Q are answered in order after `edgesToAnswer` edges, whatever is accepted behind them, by
induction on those requests: the head is answered, and then the others are. The wait counts only if there is a head. -/
theorem runEdges_answers_front {p : Params} {front back : List Request} {es : List PortIn} {s t : State} {wait : Nat}
    (hreset : s.inReset = false) (hq : s.q = front ++ back) (hwait : front ≠ [] → s.rspWait = wait)
    (hlen : es.length = edgesToAnswer p front wait s.draws) (htakes : alwaysTakes es)
    (hrun : runEdges p es s = .next t) : t.delivered = s.delivered ++ front.map (response s.capSupported) := by
  induction front generalizing s es back wait with
  | nil =>
    obtain rfl : es = [] := List.length_eq_zero_iff.1 hlen
    cases hrun
    simp
  | cons r rest ih =>
    obtain rfl : s.rspWait = wait := hwait (List.cons_ne_nil r rest)
    rw [edgesToAnswer] at hlen
    rw [← List.take_append_drop (s.rspWait + 1) es] at hrun
    obtain ⟨u, hfirst, hothers⟩ := runEdges_append_next hrun
    have hu : HeadAnswered p r (rest ++ back) s u := runEdges_answers_head hreset hq
      (fun e he => htakes e (List.mem_of_mem_take he)) (by rw [List.length_take]; omega) hfirst
    obtain ⟨more, huq⟩ := hu.q
    have hrest : t.delivered = u.delivered ++ rest.map (response u.capSupported) :=
      ih hu.inReset (huq.trans (List.append_assoc _ _ _))
        (fun hne => hu.rspWait (by simp [huq, hne]))
        (by rw [hu.draws, List.length_drop]; omega) (fun e he => htakes e (List.mem_of_mem_drop he)) hothers
    rw [hrest, hu.delivered, State.capSupported_congr hu.caps, List.append_assoc]
    rfl

/-- Settles O47: all of Q is answered after `edgesToAnswer` edges. -/
theorem everyRequestAnswered : Obligations.EveryRequestAnswered :=
  fun p s hreset => ⟨edgesToAnswer p s.q s.rspWait s.draws, fun _ _ hlen htakes hrun =>
    runEdges_answers_front hreset (List.append_nil _).symm (fun _ => rfl) hlen htakes hrun⟩

/-! ## A host that takes no responses (rule R138) -/

/-- An edge without reset at which the host takes nothing delivers nothing and only adds to Q what it accepts. -/
theorem clockEdge_takes_nothing {p : Params} {inp : PortIn} {s t : State} (hreset : s.inReset = false)
    (hrst : inp.rst = false) (hready : inp.rspReady = false) (ht : clockEdge p inp s = .next t) :
    t.inReset = false ∧ t.delivered = s.delivered ∧ t.q = s.q ++ (if s.accepts p inp then [inp.req] else []) := by
  obtain ⟨-, htreset, htq, htdelivered⟩ := clockEdge_running_fields hreset hrst ht
  rw [s.delivers_of_not_ready hready] at htq htdelivered
  exact ⟨htreset, by simpa using htdelivered, htq⟩

/-- Nothing is accepted into a full Q (rule R70). -/
theorem State.accepts_of_full {p : Params} (inp : PortIn) {s : State} (h : p.maxInflight ≤ s.q.length) :
    s.accepts p inp = false := by
  rw [← Bool.not_eq_true, State.accepts_iff]
  omega

/-- A run without reset in which the host takes nothing delivers nothing and only adds to Q what it accepts. -/
theorem runEdges_takes_nothing {p : Params} {es : List PortIn} {s t : State} (hreset : s.inReset = false)
    (hnever : neverTakes es) (hrun : runEdges p es s = .next t) :
    t.delivered = s.delivered ∧ t.q = s.q ++ acceptedRequests p es s := by
  induction es generalizing s with
  | nil =>
    cases hrun
    simp [acceptedRequests]
  | cons inp es ih =>
    obtain ⟨⟨hrst, hready⟩, hnever'⟩ := List.forall_mem_cons.1 hnever
    obtain ⟨u, hedge, hrest⟩ := runEdges_cons_next hrun
    obtain ⟨hureset, hudelivered, huq⟩ := clockEdge_takes_nothing hreset hrst hready hedge
    obtain ⟨htdelivered, htq⟩ := ih hureset hnever' hrest
    exact ⟨htdelivered.trans hudelivered, by rw [htq, huq, acceptedRequests_cons es hedge, List.append_assoc]⟩

/-- A full Q of which nothing is taken accepts nothing. -/
theorem acceptedRequests_of_full {p : Params} {es : List PortIn} {s t : State} (hreset : s.inReset = false)
    (hnever : neverTakes es) (hrun : runEdges p es s = .next t) (hfull : p.maxInflight ≤ s.q.length) :
    acceptedRequests p es s = [] := by
  induction es generalizing s with
  | nil => rfl
  | cons inp es ih =>
    obtain ⟨⟨hrst, hready⟩, hnever'⟩ := List.forall_mem_cons.1 hnever
    obtain ⟨u, hedge, hrest⟩ := runEdges_cons_next hrun
    obtain ⟨hureset, -, huq⟩ := clockEdge_takes_nothing hreset hrst hready hedge
    have hacc := State.accepts_of_full inp hfull
    have hufull : p.maxInflight ≤ u.q.length := by simpa [huq, hacc] using hfull
    rw [acceptedRequests_cons es hedge, ih hureset hnever' hrest hufull, hacc]
    rfl

/-- Settles O48: the run adds to Q what it accepts and nothing else, which is nothing if Q is full. -/
theorem backpressure : Obligations.Backpressure := by
  intro p es s t hreset hnever hrun
  obtain ⟨hdelivered, hq⟩ := runEdges_takes_nothing hreset hnever hrun
  refine ⟨hdelivered, ⟨_, hq⟩, fun hfull => ?_⟩
  rw [acceptedRequests_of_full hreset hnever hrun hfull, List.append_nil] at hq
  refine ⟨hq, ?_⟩
  change t.reqReady p = false
  rw [← Bool.not_eq_true, State.reqReady_iff, hq]
  omega

end Sys2Proof.Machine
end
